-- ==== Sys2Proof/Word.lean ====
section
/-! DEFINITION. The bit-vector types of the spec and the small closed sets of names it uses
(00_scope.md R11: bit 0 is the least significant bit of every value). -/

namespace Sys2Proof

/-- An 8-bit value: a device register's contents or its address (R9 `REG_BITS`, `REG_ADDR_BITS`; R50). -/
abbrev Byte := BitVec 8

/-- A 16-bit value: the register `RW` (R24). -/
abbrev Half := BitVec 16

/-- A 32-bit value: a command word or a host-port register (R35, R80). -/
abbrev Word := BitVec 32

/-- A 7-bit I2C slave address (R51, R82). -/
abbrev SlaveAddr := BitVec 7

/-- An 11-bit micro-operation word, `kind = u[10:8]`, `payload = u[7:0]` (R92). -/
abbrev MicroWord := BitVec 11

/-- The direction operand of `SETADDR` (R93): `write`, the master sends; `read`, the master receives. -/
inductive Dir where
  | write
  | read
deriving DecidableEq, Repr, Inhabited

/-- R93: 0 = write, 1 = read. -/
def Dir.bit : Dir → BitVec 1
  | .write => 0#1
  | .read => 1#1

/-- R93, read from the bit. -/
def Dir.ofBit (b : BitVec 1) : Dir :=
  if b = 1#1 then .read else .write

/-- The three control codes of `CTRL` (R94, R114). -/
inductive Ctrl where
  | burstStart
  | burstFinish
  | single
deriving DecidableEq, Repr, Inhabited

/-- R94: the payload of each control code. -/
def Ctrl.code : Ctrl → Byte
  | .burstStart => 0x03#8
  | .burstFinish => 0x05#8
  | .single => 0x07#8

/-- R94: payload bit 0 is `RUN`, bit 1 `START`, bit 2 `STOP`. -/
def Ctrl.run (c : Ctrl) : Bool := c.code.getLsbD 0

/-- R94: payload bit 1. -/
def Ctrl.start (c : Ctrl) : Bool := c.code.getLsbD 1

/-- R94: payload bit 2. -/
def Ctrl.stop (c : Ctrl) : Bool := c.code.getLsbD 2

/-- The kind of the transaction in progress, the register `TK` (R20, R131). -/
inductive Kind where
  | receive
  | send
deriving DecidableEq, Repr, Inhabited

/-- R20: `TK` is 0 for receive and 1 for send. -/
def Kind.bit : Kind → BitVec 1
  | .receive => 0#1
  | .send => 1#1

/-- The status field `ERR` (R29, R200): why the last command was refused. -/
inductive ErrCode where
  | none
  | invalidIndex
  | illegalCommand
  | unknownRegister
deriving DecidableEq, Repr, Inhabited

/-- R29, R200: 0 none, 1 `INVALID_INDEX`, 2 `ILLEGAL_COMMAND`, 3 `UNKNOWN_REGISTER`. -/
def ErrCode.code : ErrCode → BitVec 2
  | .none => 0#2
  | .invalidIndex => 1#2
  | .illegalCommand => 2#2
  | .unknownRegister => 3#2

end Sys2Proof
end

