-- ==== Sys2Proof/Machine/Memory.lean ====
section
/-! DEFINITION. The device register space (20_memory.md R50): 256 byte locations, as a sparse list of cells in one
canonical form. It is the map `SLV` of the reference slave (40_bus_port.md R122). An address that nothing has written
is not listed and reads as no value here; Machine/Env.lean says what the reference slave returns for it. -/

namespace Sys2Proof.Machine

/-- The device register space: (address, byte) cells, addresses strictly rising. -/
abbrev Memory := List Host.Cell

/-- Every listed address is above `lo`, they rise strictly, and they lie in the 8-bit address space (R50). -/
def Memory.wfAbove (lo : Nat) : Memory → Bool
  | [] => true
  | (a, _) :: rest => decide (lo ≤ a ∧ a < 256) && Memory.wfAbove (a + 1) rest

/-- The canonical form: addresses strictly rising and below 256. An unlisted address reads as no value, so no entry
can equal it. -/
def Memory.wf (m : Memory) : Bool :=
  Memory.wfAbove 0 m

/-- Read one byte; `none` where nothing has been written. -/
def Memory.read (m : Memory) (a : Byte) : Option Byte :=
  (m.find? fun c => c.1 == a.toNat).map (·.2)

/-- Insert or replace the cell at key `k`. -/
def Memory.insert (k : Nat) (b : Byte) : Memory → Memory
  | [] => [(k, b)]
  | (a, x) :: rest =>
    if k < a then (k, b) :: (a, x) :: rest
    else if k = a then (a, b) :: rest
    else (a, x) :: Memory.insert k b rest

/-- Write one byte. -/
def Memory.write (m : Memory) (a b : Byte) : Memory :=
  Memory.insert a.toNat b m

end Sys2Proof.Machine
end

