-- ==== Sys2Proof/Config.lean ====
section
/-! DEFINITION. The parameters of the block (00_scope.md R9) as one plain record, and the free values: constants
without a body for what the spec leaves to the environment or leaves unspecified.

`POLL_LIMIT` and `MASK_ON_ENCODE` are fixed by R9 at "none" and "true": they are no fields here, the busy-wait has
no bound (Machine/MicroOps.lean) and the codec always masks (Machine/Codec.lean). `REG_ADDR_BITS`, `REG_BITS` are
the width of `Byte`; `NV` and `BUF_LEN` are the two numbers below, fixed by D3 (DESIGN CHOICE, log entry 8, safe). -/

namespace Sys2Proof

/-- R96: a field descriptor `(name, offset, width)`, written `name:offset:width`. The name has no effect on any
result. -/
structure Field where
  name : String
  offset : Nat
  width : Nat
deriving DecidableEq, Repr

/-- One entry of `REGTAB` (R9): register address, name, field list with `V[0]`'s field first. -/
structure RegEntry where
  addr : Byte
  name : String
  fields : List Field
deriving DecidableEq, Repr

/-- One entry of `PAIRTAB` (R9, R55): the address of the high-order byte's register and of the low-order byte's. -/
structure PairEntry where
  name : String
  addrH : Byte
  addrL : Byte
  signed : Bool
deriving DecidableEq, Repr

/-- One entry of `ARRTAB` (R9). -/
structure ArrEntry where
  name : String
  base : Byte
  count : Nat
deriving DecidableEq, Repr

/-- R9: the parameters that are open. A machine is built with one `Config` and never changes it. -/
structure Config where
  slaveAddr : SlaveAddr
  regtab : List RegEntry
  pairtab : List PairEntry
  arrtab : List ArrEntry
  recvWriteCtrl : Ctrl
deriving DecidableEq, Repr

/-- R9: `NV`, the number of view registers. -/
def Config.nv : Nat := 8

/-- R9: `BUF_LEN`, the number of entries of the array buffer. -/
def Config.bufLen : Nat := 24

/-! ### Free values

Each is a constant without a body: no proof can see what it is, so a claim that mentions one holds whatever it is. -/

/-- R119: the busy bit the environment answers to a `POLL` beyond the scripted ones, by draw number (log entry 2). -/
opaque Config.freeBusy : Nat → Bool

/-- R119, R122: a drawn byte (the answer to a `GET` beyond the scripted ones, or what a read of a slave nobody
answers returns), by draw number (log entry 2). -/
opaque Config.freeByte : Nat → Byte

/-- R121: the drawn natural number of `POLL`s the reference bus controller answers busy after a `CTRL`, by draw
number (log entry 2). -/
opaque Config.freeCount : Nat → Nat

/-- R122: what the reference slave holds at an address nothing has written (log entry 5). -/
opaque Config.slaveInitial : Byte → Byte

/-- R43, R44: the unspecified values of the data registers and hidden latches after the first reset (log entry 1). -/
opaque Config.resetV : Fin 8 → Byte
/-- R43, R44, log entry 1. -/
opaque Config.resetBuf : Fin 24 → Byte
/-- R43, R44, log entry 1. -/
opaque Config.resetRd : Byte
/-- R43, R44, log entry 1. -/
opaque Config.resetRw : Half
/-- R43, R44, log entry 1. -/
opaque Config.resetTk : Kind
/-- R43, R44, log entry 1. -/
opaque Config.resetTsa : SlaveAddr
/-- R43, R44, log entry 1. -/
opaque Config.resetTra : Byte
/-- R43, R44, log entry 1. -/
opaque Config.resetTwd : Byte
/-- R43, R44, log entry 1. -/
opaque Config.resetHi : Byte

end Sys2Proof
end

