-- ==== Sys2Proof/Syntax.lean ====
section
/-! DEFINITION. The abstract syntax: one constructor per row of spec/opcode_table.json, the eleven commands the host
gives the block and the seven micro-operation words the block gives the bus controller (30_encoding.md R84, R92). -/

namespace Sys2Proof

/-- An instruction. Operands have the widths of R82, R83, R92 to R95, so no operand can be out of range. -/
inductive Instr where
  /-- R134 `RECVB sa, ra`: one receive transaction. -/
  | recvb (sa : SlaveAddr) (ra : Byte)
  /-- R137 `SENDB sa, ra, d`: one send transaction. -/
  | sendb (sa : SlaveAddr) (ra : Byte) (d : Byte)
  /-- R153 `DEC ra, d`: decode byte `d` by `REGTAB[ra]` into `V`. -/
  | dec (ra : Byte) (d : Byte)
  /-- R154 `ENC ra`: encode `V` by `REGTAB[ra]` into `RD`. -/
  | enc (ra : Byte)
  /-- R171 `RDREG ra`: receive, then decode. -/
  | rdreg (ra : Byte)
  /-- R173 `WRREG ra`: encode, then send. -/
  | wrreg (ra : Byte)
  /-- R175 `RDPAIR ra`: two receives, high-order byte first. -/
  | rdpair (ra : Byte)
  /-- R177 `RDARR ra, idx`: indexed array read. -/
  | rdarr (ra : Byte) (idx : Byte)
  /-- R178 `WRARR ra, idx, d`: indexed array write. -/
  | wrarr (ra : Byte) (idx : Byte) (d : Byte)
  /-- R179 `RDBANK ra`: whole-array read. -/
  | rdbank (ra : Byte)
  /-- R180 `WRBANK ra`: whole-array write. -/
  | wrbank (ra : Byte)
  /-- R112 `SETADDR sa, dir`. -/
  | setaddr (sa : SlaveAddr) (dir : Dir)
  /-- R113 `PUT b`. -/
  | put (b : Byte)
  /-- R114 `CTRL BURST_START`. -/
  | ctrlBurstStart
  /-- R114 `CTRL BURST_FINISH`. -/
  | ctrlBurstFinish
  /-- R114 `CTRL SINGLE`. -/
  | ctrlSingle
  /-- R117 `POLL`. -/
  | poll
  /-- R118 `GET`. -/
  | get
deriving DecidableEq, Repr

end Sys2Proof
end

