-- ==== Sys2Proof/WellFormed.lean ====
section
/-! DEFINITION. Well-formedness. The spec puts its checks on the parameter tables (00_scope.md R10) and on the legal
values of `RECV_WRITE_CTRL` (R9), not on the operands of an instruction: every operand field takes every value of its
width (R57, R82, R83), and the types of `Instr` hold exactly those widths, so every term of `Instr` is well formed.
Whether a command's register address is in a table is no well-formedness but a check of the accept step (R208). -/

namespace Sys2Proof

/-- Every two entries at different positions of the list are related. -/
def allPairs {α : Type} (r : α → α → Bool) : List α → Bool
  | [] => true
  | x :: xs => xs.all (r x) && allPairs r xs

/-- R10: `1 <= width <= 8`, `0 <= offset <= 7`, `offset + width <= 8`. -/
def Field.wf (f : Field) : Bool :=
  decide (1 ≤ f.width ∧ f.width ≤ 8 ∧ f.offset ≤ 7 ∧ f.offset + f.width ≤ 8)

/-- R10: two fields share no bit (one ends at or below where the other begins). -/
def Field.disjoint (f g : Field) : Bool :=
  decide (f.offset + f.width ≤ g.offset ∨ g.offset + g.width ≤ f.offset)

/-- R10: a field list has between 1 and `NV` fields. -/
def fieldCountWf (fs : List Field) : Bool :=
  decide (1 ≤ fs.length ∧ fs.length ≤ Config.nv)

/-- R10: the conditions on one field list, together. -/
def fieldsWf (fs : List Field) : Bool :=
  fieldCountWf fs && fs.all Field.wf && allPairs Field.disjoint fs

/-- R10: `1 <= count <= BUF_LEN` and `base + count - 1 <= 0xFF`. -/
def ArrEntry.wf (e : ArrEntry) : Bool :=
  decide (1 ≤ e.count ∧ e.count ≤ Config.bufLen ∧ e.base.toNat + e.count - 1 ≤ 0xFF)

/-- R10: `addrH != addrL`. -/
def PairEntry.wf (e : PairEntry) : Bool :=
  e.addrH != e.addrL

/-- Why a parameter set is refused (R10, R9), one name for each condition. -/
inductive ConfigError where
  /-- A field list is empty or has more than `NV` fields. -/
  | fieldCount
  /-- A field's width or offset is out of range. -/
  | fieldRange
  /-- Two fields of one register share a bit. -/
  | fieldOverlap
  /-- An array's count is 0 or above `BUF_LEN`, or its last address is above 0xFF. -/
  | arrayRange
  /-- A pair's two addresses are equal. -/
  | pairAddresses
  /-- Two entries of one table have the same key. -/
  | duplicateKey
  /-- `RECV_WRITE_CTRL` is neither 7 nor 3. -/
  | recvWriteCtrl
deriving DecidableEq, Repr

/-- R10: the keys of each table are distinct (`REGTAB` by address, `PAIRTAB` by `addrH`, `ARRTAB` by `base`). -/
def Config.keysDistinct (c : Config) : Bool :=
  allPairs (fun a b => a.addr != b.addr) c.regtab &&
    allPairs (fun a b => a.addrH != b.addrH) c.pairtab &&
    allPairs (fun a b => a.base != b.base) c.arrtab

/-- R9: "7 (`SINGLE`); the other legal value is 3 (`BURST_START`)". -/
def Config.recvWriteCtrlLegal (c : Config) : Bool :=
  c.recvWriteCtrl != .burstFinish

/-- R10: the check a model makes once, when the parameters are given; the first condition that fails, if any. -/
def Config.check (c : Config) : Option ConfigError :=
  if !(c.regtab.all fun e => fieldCountWf e.fields) then some .fieldCount
  else if !(c.regtab.all fun e => e.fields.all Field.wf) then some .fieldRange
  else if !(c.regtab.all fun e => allPairs Field.disjoint e.fields) then some .fieldOverlap
  else if !(c.arrtab.all ArrEntry.wf) then some .arrayRange
  else if !(c.pairtab.all PairEntry.wf) then some .pairAddresses
  else if !c.keysDistinct then some .duplicateKey
  else if !c.recvWriteCtrlLegal then some .recvWriteCtrl
  else none

/-- R10: the parameters are well formed. -/
def Config.wf (c : Config) : Bool :=
  c.check == none

/-- Which of the two instruction sets of 30_encoding.md an instruction belongs to: a command of the host. -/
def Instr.isCommand : Instr → Bool
  | .recvb _ _ => true
  | .sendb _ _ _ => true
  | .dec _ _ => true
  | .enc _ => true
  | .rdreg _ => true
  | .wrreg _ => true
  | .rdpair _ => true
  | .rdarr _ _ => true
  | .wrarr _ _ _ => true
  | .rdbank _ => true
  | .wrbank _ => true
  | .setaddr _ _ => false
  | .put _ => false
  | .ctrlBurstStart => false
  | .ctrlBurstFinish => false
  | .ctrlSingle => false
  | .poll => false
  | .get => false

end Sys2Proof
end

