-- ==== Sys2Proof/Machine/Tables.lean ====
section
/-! DEFINITION. The default tables of the parameters (20_memory.md R66 to R68) and the default parameter set (R9).
The spec marks the addresses and field positions as general knowledge, not the source's, except the facts of R65: they
are defaults, and a claim that rests on them is about this default parameter set (log entry 6). -/

namespace Sys2Proof.Machine

/-- R66, default `REGTAB`: SELF_TEST_X to I2C_SLV0_REG. -/
def regtab1 : List RegEntry := [
  ⟨0x0D#8, "SELF_TEST_X", [⟨"XA_TEST_HI", 5, 3⟩, ⟨"XG_TEST", 0, 5⟩]⟩,
  ⟨0x0E#8, "SELF_TEST_Y", [⟨"YA_TEST_HI", 5, 3⟩, ⟨"YG_TEST", 0, 5⟩]⟩,
  ⟨0x0F#8, "SELF_TEST_Z", [⟨"ZA_TEST_HI", 5, 3⟩, ⟨"ZG_TEST", 0, 5⟩]⟩,
  ⟨0x10#8, "SELF_TEST_A", [⟨"XA_TEST_LO", 4, 2⟩, ⟨"YA_TEST_LO", 2, 2⟩, ⟨"ZA_TEST_LO", 0, 2⟩]⟩,
  ⟨0x19#8, "SMPLRT_DIV", [⟨"SMPLRT_DIV", 0, 8⟩]⟩,
  ⟨0x1A#8, "CONFIG", [⟨"EXT_SYNC_SET", 3, 3⟩, ⟨"DLPF_CFG", 0, 3⟩]⟩,
  ⟨0x1B#8, "GYRO_CONFIG", [⟨"XG_ST", 7, 1⟩, ⟨"YG_ST", 6, 1⟩, ⟨"ZG_ST", 5, 1⟩, ⟨"FS_SEL", 3, 2⟩]⟩,
  ⟨0x1C#8, "ACCEL_CONFIG", [⟨"XA_ST", 7, 1⟩, ⟨"YA_ST", 6, 1⟩, ⟨"ZA_ST", 5, 1⟩, ⟨"AFS_SEL", 3, 2⟩]⟩,
  ⟨0x23#8, "FIFO_EN", [⟨"TEMP_FIFO_EN", 7, 1⟩, ⟨"XG_FIFO_EN", 6, 1⟩, ⟨"YG_FIFO_EN", 5, 1⟩, ⟨"ZG_FIFO_EN", 4, 1⟩, ⟨"ACCEL_FIFO_EN", 3, 1⟩, ⟨"SLV2_FIFO_EN", 2, 1⟩, ⟨"SLV1_FIFO_EN", 1, 1⟩, ⟨"SLV0_FIFO_EN", 0, 1⟩]⟩,
  ⟨0x24#8, "I2C_MST_CTRL", [⟨"MULT_MST_EN", 7, 1⟩, ⟨"WAIT_FOR_ES", 6, 1⟩, ⟨"SLV_3_FIFO_EN", 5, 1⟩, ⟨"I2C_MST_P_NSR", 4, 1⟩, ⟨"I2C_MST_CLK", 0, 4⟩]⟩,
  ⟨0x25#8, "I2C_SLV0_ADDR", [⟨"RW", 7, 1⟩, ⟨"ADDR", 0, 7⟩]⟩,
  ⟨0x26#8, "I2C_SLV0_REG", [⟨"REG", 0, 8⟩]⟩]

/-- R66, default `REGTAB`: I2C_SLV0_CTRL to I2C_SLV4_REG. -/
def regtab2 : List RegEntry := [
  ⟨0x27#8, "I2C_SLV0_CTRL", [⟨"EN", 7, 1⟩, ⟨"BYTE_SW", 6, 1⟩, ⟨"REG_DIS", 5, 1⟩, ⟨"GRP", 4, 1⟩, ⟨"LEN", 0, 4⟩]⟩,
  ⟨0x28#8, "I2C_SLV1_ADDR", [⟨"RW", 7, 1⟩, ⟨"ADDR", 0, 7⟩]⟩,
  ⟨0x29#8, "I2C_SLV1_REG", [⟨"REG", 0, 8⟩]⟩,
  ⟨0x2A#8, "I2C_SLV1_CTRL", [⟨"EN", 7, 1⟩, ⟨"BYTE_SW", 6, 1⟩, ⟨"REG_DIS", 5, 1⟩, ⟨"GRP", 4, 1⟩, ⟨"LEN", 0, 4⟩]⟩,
  ⟨0x2B#8, "I2C_SLV2_ADDR", [⟨"RW", 7, 1⟩, ⟨"ADDR", 0, 7⟩]⟩,
  ⟨0x2C#8, "I2C_SLV2_REG", [⟨"REG", 0, 8⟩]⟩,
  ⟨0x2D#8, "I2C_SLV2_CTRL", [⟨"EN", 7, 1⟩, ⟨"BYTE_SW", 6, 1⟩, ⟨"REG_DIS", 5, 1⟩, ⟨"GRP", 4, 1⟩, ⟨"LEN", 0, 4⟩]⟩,
  ⟨0x2E#8, "I2C_SLV3_ADDR", [⟨"RW", 7, 1⟩, ⟨"ADDR", 0, 7⟩]⟩,
  ⟨0x2F#8, "I2C_SLV3_REG", [⟨"REG", 0, 8⟩]⟩,
  ⟨0x30#8, "I2C_SLV3_CTRL", [⟨"EN", 7, 1⟩, ⟨"BYTE_SW", 6, 1⟩, ⟨"REG_DIS", 5, 1⟩, ⟨"GRP", 4, 1⟩, ⟨"LEN", 0, 4⟩]⟩,
  ⟨0x31#8, "I2C_SLV4_ADDR", [⟨"RW", 7, 1⟩, ⟨"ADDR", 0, 7⟩]⟩,
  ⟨0x32#8, "I2C_SLV4_REG", [⟨"REG", 0, 8⟩]⟩]

/-- R66, default `REGTAB`: I2C_SLV4_DO to ACCEL_ZOUT_H. -/
def regtab3 : List RegEntry := [
  ⟨0x33#8, "I2C_SLV4_DO", [⟨"DO", 0, 8⟩]⟩,
  ⟨0x34#8, "I2C_SLV4_CTRL", [⟨"EN", 7, 1⟩, ⟨"INT_EN", 6, 1⟩, ⟨"REG_DIS", 5, 1⟩, ⟨"MST_DLY", 0, 5⟩]⟩,
  ⟨0x35#8, "I2C_SLV4_DI", [⟨"DI", 0, 8⟩]⟩,
  ⟨0x36#8, "I2C_MST_STATUS", [⟨"PASS_THROUGH", 7, 1⟩, ⟨"SLV4_DONE", 6, 1⟩, ⟨"LOST_ARB", 5, 1⟩, ⟨"SLV4_NACK", 4, 1⟩, ⟨"SLV3_NACK", 3, 1⟩, ⟨"SLV2_NACK", 2, 1⟩, ⟨"SLV1_NACK", 1, 1⟩, ⟨"SLV0_NACK", 0, 1⟩]⟩,
  ⟨0x37#8, "INT_PIN_CFG", [⟨"INT_LEVEL", 7, 1⟩, ⟨"INT_OPEN", 6, 1⟩, ⟨"LATCH_INT_EN", 5, 1⟩, ⟨"INT_RD_CLEAR", 4, 1⟩, ⟨"FSYNC_INT_LEVEL", 3, 1⟩, ⟨"FSYNC_INT_EN", 2, 1⟩, ⟨"I2C_BYPASS_EN", 1, 1⟩]⟩,
  ⟨0x38#8, "INT_ENABLE", [⟨"MOT_EN", 6, 1⟩, ⟨"FIFO_OFLOW_EN", 4, 1⟩, ⟨"I2C_MST_INT_EN", 3, 1⟩, ⟨"DATA_RDY_EN", 0, 1⟩]⟩,
  ⟨0x3A#8, "INT_STATUS", [⟨"MOT_INT", 6, 1⟩, ⟨"FIFO_OFLOW_INT", 4, 1⟩, ⟨"I2C_MST_INT", 3, 1⟩, ⟨"DATA_RDY_INT", 0, 1⟩]⟩,
  ⟨0x3B#8, "ACCEL_XOUT_H", [⟨"DATA", 0, 8⟩]⟩,
  ⟨0x3C#8, "ACCEL_XOUT_L", [⟨"DATA", 0, 8⟩]⟩,
  ⟨0x3D#8, "ACCEL_YOUT_H", [⟨"DATA", 0, 8⟩]⟩,
  ⟨0x3E#8, "ACCEL_YOUT_L", [⟨"DATA", 0, 8⟩]⟩,
  ⟨0x3F#8, "ACCEL_ZOUT_H", [⟨"DATA", 0, 8⟩]⟩]

/-- R66, default `REGTAB`: ACCEL_ZOUT_L to GYRO_ZOUT_L. -/
def regtab4 : List RegEntry := [
  ⟨0x40#8, "ACCEL_ZOUT_L", [⟨"DATA", 0, 8⟩]⟩,
  ⟨0x41#8, "TEMP_OUT_H", [⟨"DATA", 0, 8⟩]⟩,
  ⟨0x42#8, "TEMP_OUT_L", [⟨"DATA", 0, 8⟩]⟩,
  ⟨0x43#8, "GYRO_XOUT_H", [⟨"DATA", 0, 8⟩]⟩,
  ⟨0x44#8, "GYRO_XOUT_L", [⟨"DATA", 0, 8⟩]⟩,
  ⟨0x45#8, "GYRO_YOUT_H", [⟨"DATA", 0, 8⟩]⟩,
  ⟨0x46#8, "GYRO_YOUT_L", [⟨"DATA", 0, 8⟩]⟩,
  ⟨0x47#8, "GYRO_ZOUT_H", [⟨"DATA", 0, 8⟩]⟩,
  ⟨0x48#8, "GYRO_ZOUT_L", [⟨"DATA", 0, 8⟩]⟩]

/-- R66, default `REGTAB`: EXT_SENS_DATA_00 to EXT_SENS_DATA_23. -/
def regtab5 : List RegEntry := [
  ⟨0x49#8, "EXT_SENS_DATA_00", [⟨"DATA", 0, 8⟩]⟩,
  ⟨0x4A#8, "EXT_SENS_DATA_01", [⟨"DATA", 0, 8⟩]⟩,
  ⟨0x4B#8, "EXT_SENS_DATA_02", [⟨"DATA", 0, 8⟩]⟩,
  ⟨0x4C#8, "EXT_SENS_DATA_03", [⟨"DATA", 0, 8⟩]⟩,
  ⟨0x4D#8, "EXT_SENS_DATA_04", [⟨"DATA", 0, 8⟩]⟩,
  ⟨0x4E#8, "EXT_SENS_DATA_05", [⟨"DATA", 0, 8⟩]⟩,
  ⟨0x4F#8, "EXT_SENS_DATA_06", [⟨"DATA", 0, 8⟩]⟩,
  ⟨0x50#8, "EXT_SENS_DATA_07", [⟨"DATA", 0, 8⟩]⟩,
  ⟨0x51#8, "EXT_SENS_DATA_08", [⟨"DATA", 0, 8⟩]⟩,
  ⟨0x52#8, "EXT_SENS_DATA_09", [⟨"DATA", 0, 8⟩]⟩,
  ⟨0x53#8, "EXT_SENS_DATA_10", [⟨"DATA", 0, 8⟩]⟩,
  ⟨0x54#8, "EXT_SENS_DATA_11", [⟨"DATA", 0, 8⟩]⟩,
  ⟨0x55#8, "EXT_SENS_DATA_12", [⟨"DATA", 0, 8⟩]⟩,
  ⟨0x56#8, "EXT_SENS_DATA_13", [⟨"DATA", 0, 8⟩]⟩,
  ⟨0x57#8, "EXT_SENS_DATA_14", [⟨"DATA", 0, 8⟩]⟩,
  ⟨0x58#8, "EXT_SENS_DATA_15", [⟨"DATA", 0, 8⟩]⟩,
  ⟨0x59#8, "EXT_SENS_DATA_16", [⟨"DATA", 0, 8⟩]⟩,
  ⟨0x5A#8, "EXT_SENS_DATA_17", [⟨"DATA", 0, 8⟩]⟩,
  ⟨0x5B#8, "EXT_SENS_DATA_18", [⟨"DATA", 0, 8⟩]⟩,
  ⟨0x5C#8, "EXT_SENS_DATA_19", [⟨"DATA", 0, 8⟩]⟩,
  ⟨0x5D#8, "EXT_SENS_DATA_20", [⟨"DATA", 0, 8⟩]⟩,
  ⟨0x5E#8, "EXT_SENS_DATA_21", [⟨"DATA", 0, 8⟩]⟩,
  ⟨0x5F#8, "EXT_SENS_DATA_22", [⟨"DATA", 0, 8⟩]⟩,
  ⟨0x60#8, "EXT_SENS_DATA_23", [⟨"DATA", 0, 8⟩]⟩]

/-- R66, default `REGTAB`: I2C_SLV0_DO to FIFO_R_W. -/
def regtab6 : List RegEntry := [
  ⟨0x63#8, "I2C_SLV0_DO", [⟨"DO", 0, 8⟩]⟩,
  ⟨0x64#8, "I2C_SLV1_DO", [⟨"DO", 0, 8⟩]⟩,
  ⟨0x65#8, "I2C_SLV2_DO", [⟨"DO", 0, 8⟩]⟩,
  ⟨0x66#8, "I2C_SLV3_DO", [⟨"DO", 0, 8⟩]⟩,
  ⟨0x67#8, "I2C_MST_DELAY_CTRL", [⟨"DELAY_ES_SHADOW", 7, 1⟩, ⟨"SLV4_DLY_EN", 4, 1⟩, ⟨"SLV3_DLY_EN", 3, 1⟩, ⟨"SLV2_DLY_EN", 2, 1⟩, ⟨"SLV1_DLY_EN", 1, 1⟩, ⟨"SLV0_DLY_EN", 0, 1⟩]⟩,
  ⟨0x68#8, "SIGNAL_PATH_RESET", [⟨"GYRO_RESET", 2, 1⟩, ⟨"ACCEL_RESET", 1, 1⟩, ⟨"TEMP_RESET", 0, 1⟩]⟩,
  ⟨0x6A#8, "USER_CTRL", [⟨"FIFO_EN", 6, 1⟩, ⟨"I2C_MST_EN", 5, 1⟩, ⟨"I2C_IF_DIS", 4, 1⟩, ⟨"FIFO_RESET", 2, 1⟩, ⟨"I2C_MST_RESET", 1, 1⟩, ⟨"SIG_COND_RESET", 0, 1⟩]⟩,
  ⟨0x6B#8, "PWR_MGMT_1", [⟨"DEVICE_RESET", 7, 1⟩, ⟨"SLEEP", 6, 1⟩, ⟨"CYCLE", 5, 1⟩, ⟨"TEMP_DIS", 3, 1⟩, ⟨"CLKSEL", 0, 3⟩]⟩,
  ⟨0x6C#8, "PWR_MGMT_2", [⟨"LP_WAKE_CTRL", 6, 2⟩, ⟨"STBY_XA", 5, 1⟩, ⟨"STBY_YA", 4, 1⟩, ⟨"STBY_ZA", 3, 1⟩, ⟨"STBY_XG", 2, 1⟩, ⟨"STBY_YG", 1, 1⟩, ⟨"STBY_ZG", 0, 1⟩]⟩,
  ⟨0x72#8, "FIFO_COUNTH", [⟨"DATA", 0, 8⟩]⟩,
  ⟨0x73#8, "FIFO_COUNTL", [⟨"DATA", 0, 8⟩]⟩,
  ⟨0x74#8, "FIFO_R_W", [⟨"DATA", 0, 8⟩]⟩]

/-- R66, default `REGTAB`: WHO_AM_I to WHO_AM_I. -/
def regtab7 : List RegEntry := [
  ⟨0x75#8, "WHO_AM_I", [⟨"WHO_AM_I", 0, 8⟩]⟩]

/-- R66: the default `REGTAB`, 82 addresses. -/
def defaultRegtab : List RegEntry :=
  regtab1 ++ regtab2 ++ regtab3 ++ regtab4 ++ regtab5 ++ regtab6 ++ regtab7

/-- R67: the default `PAIRTAB`. -/
def defaultPairtab : List PairEntry := [
  ⟨"ACCEL_XOUT", 0x3B#8, 0x3C#8, true⟩,
  ⟨"ACCEL_YOUT", 0x3D#8, 0x3E#8, true⟩,
  ⟨"ACCEL_ZOUT", 0x3F#8, 0x40#8, true⟩,
  ⟨"TEMP_OUT", 0x41#8, 0x42#8, true⟩,
  ⟨"GYRO_XOUT", 0x43#8, 0x44#8, true⟩,
  ⟨"GYRO_YOUT", 0x45#8, 0x46#8, true⟩,
  ⟨"GYRO_ZOUT", 0x47#8, 0x48#8, true⟩,
  ⟨"FIFO_COUNT", 0x72#8, 0x73#8, false⟩]

/-- R68: the default `ARRTAB`. -/
def defaultArrtab : List ArrEntry := [
  ⟨"EXT_SENS_DATA", 0x49#8, 24⟩,
  ⟨"I2C_SLV4", 0x31#8, 5⟩]

/-- R9: the default of every parameter (`SLAVE_ADDR` 0x68, `RECV_WRITE_CTRL` 7). -/
def defaultConfig : Config where
  slaveAddr := 0x68#7
  regtab := defaultRegtab
  pairtab := defaultPairtab
  arrtab := defaultArrtab
  recvWriteCtrl := .single

end Sys2Proof.Machine
end

