-- ==== Sys2Proof/Machine/State.lean ====
section
/-! DEFINITION. The state of the machine. `Block` is the state of the block, exactly the table of 10_state.md R20.
Around it `State` holds what the other two agents of R8 need (the host's moves and what it has read, the environment)
and the trace of R16; R33 and R34 say that none of that is state of the block, and R9 that the parameters are none. -/

namespace Sys2Proof.Machine

/-- The state of the block, "exactly the following, and nothing else" (R20). -/
structure Block where
  /-- `V[0]` to `V[7]`, the view registers (R21). -/
  v : Vector Byte 8
  /-- `RD`, the result byte (R23). -/
  rd : Byte
  /-- `RW`, the result word (R24). -/
  rw : Half
  /-- `BUF[0]` to `BUF[23]`, the array buffer (R25). -/
  buf : Vector Byte 24
  /-- `CW`, the last command word written (R26). -/
  cw : Word
  /-- `BUSY` (R29). -/
  busy : Bool
  /-- `DONE` (R29). -/
  done : Bool
  /-- `ERR` (R29). -/
  err : ErrCode
  /-- `EC`, the element counter, high part of the program counter (R27). -/
  ec : BitVec 5
  /-- `PH`, the phase, low part of the program counter (R27). -/
  ph : BitVec 3
  /-- `TK`, kind of the transaction in progress (R20, R131). -/
  tk : Kind
  /-- `TSA`, slave address of the transaction in progress. -/
  tsa : SlaveAddr
  /-- `TRA`, register address of the transaction in progress. -/
  tra : Byte
  /-- `TWD`, data byte of the send transaction in progress. -/
  twd : Byte
  /-- `HI`, high byte held between the two reads of a pair. -/
  hi : Byte
deriving DecidableEq, Repr

/-! ### The trace (R16, R111) -/

/-- The environment's answer to a micro-operation (R92): `POLL` has a busy bit, `GET` a byte, the others none. -/
inductive Answer where
  | nothing
  | busy (b : Bool)
  | data (x : Byte)
deriving DecidableEq, Repr

/-- One entry of the trace: a micro-operation word with the answer (R111). -/
structure TraceEntry where
  word : MicroWord
  answer : Answer
deriving DecidableEq, Repr

/-! ### The host (R8, R38) -/

/-- The four moves of the host (R38). `reset` stands for the reset input, whoever asserts it (R230). -/
inductive HostMove where
  | write (n : Nat) (w : Word)
  | read (n : Nat)
  | wait
  | reset
deriving DecidableEq, Repr

/-- Who takes the next step, and for the host which move: the order in which the agents step is an input (R247). -/
inductive Turn where
  | host (m : HostMove)
  | sequencer
deriving DecidableEq, Repr

/-- A host write that is held (R39). -/
structure HostWrite where
  num : Nat
  word : Word
deriving DecidableEq, Repr

/-- A host read and the value it returned. -/
structure HostRead where
  num : Nat
  word : Word
deriving DecidableEq, Repr

/-! ### The environment (R8, R119 to R124) -/

/-- Which environment the block stands in: the unconstrained one of R119, or the reference bus controller and slave of
R121 and R122. -/
inductive EnvMode where
  | free
  | reference
deriving DecidableEq, Repr

/-- The environment's draws (R119): the answers that come next, as lists, and after them the free values of Config,
told apart by the number of values drawn so far. -/
structure Draws where
  /-- Busy bits answered to the coming `POLL`s. -/
  busy : List Bool
  /-- Bytes answered to the coming `GET`s, or returned by the coming reads that no slave answers. -/
  byte : List Byte
  /-- Numbers of busy `POLL`s after the coming `CTRL`s of the reference controller. -/
  count : List Nat
  /-- How many free values have been drawn. -/
  taken : Nat
deriving DecidableEq, Repr

/-- `OPEN`, when not empty: the slave address and the bytes sent so far in a write transaction without a STOP (R121). -/
structure OpenWrite where
  sa : SlaveAddr
  bytes : List Byte
deriving DecidableEq, Repr

/-- What passes on the wire (R124): START, repeated START, STOP, address byte with direction, data byte, ACK, NACK. -/
inductive WireSym where
  | start
  | repStart
  | stop
  | addr (sa : SlaveAddr) (dir : Dir)
  | data (b : Byte)
  | ack
  | nack
deriving DecidableEq, Repr

/-- The environment: its draws, and the state of the reference bus controller (R121) and reference slave (R122). -/
structure Env where
  mode : EnvMode
  draws : Draws
  /-- `MSA`: address and direction. -/
  msa : Byte
  /-- `MDR`: data. -/
  mdr : Byte
  /-- `OPEN`. -/
  opn : Option OpenWrite
  /-- `BUSYN`: how many more `POLL`s answer 1. -/
  busyn : Nat
  /-- `DEV_ADDR`. -/
  devAddr : SlaveAddr
  /-- `SLV`: the device register space. -/
  slv : Memory
  /-- `PTR`. -/
  ptr : Byte
  /-- What the reference controller has put on the wire so far (R115, R116, R124). -/
  wire : List WireSym
deriving DecidableEq, Repr

/-! ### The machine -/

/-- The whole machine: the block, the parameters it was built with (never changed), the host's side of the port, the
trace and the environment. -/
structure State where
  block : Block
  cfg : Config
  /-- The turns to come. When the list is empty the host makes no move and only the sequencer can step (DESIGN CHOICE,
  log entry 3). -/
  turns : List Turn
  /-- The host write that is held while `BUSY` is 1, if any (R39). -/
  held : Option HostWrite
  /-- What the host has read, oldest first. -/
  reads : List HostRead
  /-- The micro-operations emitted since reset, oldest first (R16). -/
  trace : List TraceEntry
  env : Env
deriving DecidableEq, Repr

/-- Why a step stops. R14: "There is no fault outcome that stops the block"; both reasons arise only in states that no
run of the block reaches (Safety.lean `stateInv` rules them out), and both are safe: a true claim may become unprovable
there, no false one provable (DESIGN CHOICE, log entry 10). -/
inductive Fault where
  /-- Raised by `step`: the sequencer stands at phase 7 of a send, which the phase table of R136 does not have ("a send
  transaction never reaches 7", R28). Safe. -/
  | noPhase
  /-- Raised by the three `CTRL` micro-operations in the reference environment only: a direction, control code and
  `OPEN` for which R121 says "the reference has no step for it". That a `BURST_FINISH` in write direction with `OPEN` empty
is one of these is the model's reading (DESIGN CHOICE, log entry 10). Safe. -/
  | noControllerStep
deriving DecidableEq, Repr

/-- Why an instruction has no meaning. Every constructor of `Instr` has one, so nothing raises this; the constructor is
the host's interface. Safe. -/
inductive Refusal where
  /-- Raised by a rejected arm of `exec` only; there is none. Safe. -/
  | notModelled (mnemonic : String)
deriving DecidableEq, Repr

/-- The outcome of a step of this machine. -/
abbrev Result := Host.Outcome State Fault Refusal

/-! ### Reset (R43, R230) -/

/-- The block right after the first reset: control state as R43 states it, data registers and hidden latches at
unspecified values (R44; DESIGN CHOICE, log entry 1, unsafe). -/
def Block.reset : Block where
  v := Vector.ofFn Config.resetV
  rd := Config.resetRd
  rw := Config.resetRw
  buf := Vector.ofFn Config.resetBuf
  cw := 0x00000000#32
  busy := false
  done := false
  err := .none
  ec := 0#5
  ph := 0#3
  tk := Config.resetTk
  tsa := Config.resetTsa
  tra := Config.resetTra
  twd := Config.resetTwd
  hi := Config.resetHi

/-- The environment before anything happened: unconstrained, with nothing scripted. What the bus controller and the
device hold at power-up is outside the spec (R45, R233; DESIGN CHOICE, log entry 4, unsafe). -/
def Env.initial : Env where
  mode := .free
  draws := ⟨[], [], [], 0⟩
  msa := 0#8
  mdr := 0#8
  opn := none
  busyn := 0
  devAddr := 0x68#7
  slv := []
  ptr := 0#8
  wire := []

/-- The machine right after reset, built with parameters `c`. -/
def State.resetWith (c : Config) : State where
  block := Block.reset
  cfg := c
  turns := []
  held := none
  reads := []
  trace := []
  env := Env.initial

/-- The machine right after reset, with the default parameters. The block waits for the first write to `CMD` (R232). -/
def State.reset : State :=
  State.resetWith defaultConfig

/-- R10: "A model given ill-formed tables refuses to build." -/
def State.build (c : Config) : Except ConfigError State :=
  match c.check with
  | some e => .error e
  | none => .ok (State.resetWith c)

end Sys2Proof.Machine
end

