-- ==== Sys2Proof/Machine/Flags.lean ====
section
/-! DEFINITION. The three status items (10_state.md R29) and the `STATUS` word (R35). The block has no condition codes
and no flag set by arithmetic (R155). -/

namespace Sys2Proof.Machine

/-- R35: bit 0 `BUSY`, bit 1 `DONE`, bits [3:2] `ERR`, bits [31:4] read 0. -/
def Block.status (b : Block) : Word :=
  0#28 ++ b.err.code ++ BitVec.ofBool b.done ++ BitVec.ofBool b.busy

/-- The flags a running command has (R81 (4)): `BUSY` 1, `DONE` 0, `ERR` 0. -/
def Block.flagsRunning (b : Block) : Block :=
  { b with busy := true, done := false, err := .none }

/-- The flags when a command's last step ends it (R139): `BUSY` 0, `DONE` 1. -/
def Block.flagsEnded (b : Block) : Block :=
  { b with busy := false, done := true }

/-- The flags of a command carried out whole in its accept step (R153, R154): `ERR` 0, `DONE` 1, `BUSY` stays. -/
def Block.flagsAtOnce (b : Block) : Block :=
  { b with err := .none, done := true }

/-- The flags of a refusal (R207): `ERR` the code, `DONE` 1, `BUSY` stays. -/
def Block.flagsRefused (b : Block) (e : ErrCode) : Block :=
  { b with err := e, done := true }

end Sys2Proof.Machine
end

