-- ==== Sys2Proof/Decode.lean ====
section
/-! DEFINITION. Decoding and encoding of command words and micro-operation words (30_encoding.md R80 to R95).

There is no instruction memory and no byte order (R53, R56): a command word is written whole to `CMD` and a
micro-operation word stands whole on the port. Both decoders are total (R90) and reject by name. -/

namespace Sys2Proof

/-- A word of one of the two encodings: 32-bit commands (R80), 11-bit micro-operations (R92). -/
inductive Encoded where
  | command (w : Word)
  | microOp (u : MicroWord)
deriving DecidableEq, Repr

/-- Why a word is no instruction. -/
inductive Reject where
  /-- R88: opcode 0x0 or 0xC to 0xF. -/
  | reservedOpcode
  /-- R89: a must-be-zero bit of the command is 1. -/
  | nonzeroMbz
  /-- R92: micro-operation kinds 5 to 7 are never emitted. -/
  | reservedKind
  /-- R94, R95: the payload is none of those the kind has. -/
  | reservedPayload
deriving DecidableEq, Repr

/-! ### Fields of a command word (R82, R83, R86) -/

/-- R82, R83: `op = w[31:28]`. -/
def opField (w : Word) : BitVec 4 := w.extractLsb' 28 4

/-- R82, R83: `z1 = w[27:24]`, must be zero. -/
def z1Field (w : Word) : BitVec 4 := w.extractLsb' 24 4

/-- R82: `z2 = w[23]`, must be zero in format T. -/
def z2Field (w : Word) : BitVec 1 := w.extractLsb' 23 1

/-- R82, R86: `sa = w[22:16]`. -/
def saField (w : Word) : SlaveAddr := w.extractLsb' 16 7

/-- R83, R86: `idx = w[23:16]`. -/
def idxField (w : Word) : Byte := w.extractLsb' 16 8

/-- R82, R83, R86: `ra = w[15:8]`. -/
def raField (w : Word) : Byte := w.extractLsb' 8 8

/-- R82, R83, R86: `d = w[7:0]`. -/
def dField (w : Word) : Byte := w.extractLsb' 0 8

/-- Accept the instruction if the must-be-zero bits are zero (R89). -/
def requireZero (mbz : Bool) (i : Instr) : Except Reject Instr :=
  if mbz then .ok i else .error .nonzeroMbz

/-- R84, R85, R88, R89: the command a word is, or why it is none. -/
def decodeCommand (w : Word) : Except Reject Instr :=
  match opField w with
  | 0x1#4 => requireZero (z1Field w == 0#4 && z2Field w == 0#1 && dField w == 0#8) (.recvb (saField w) (raField w))
  | 0x2#4 => requireZero (z1Field w == 0#4 && z2Field w == 0#1) (.sendb (saField w) (raField w) (dField w))
  | 0x3#4 => requireZero (z1Field w == 0#4 && idxField w == 0#8) (.dec (raField w) (dField w))
  | 0x4#4 => requireZero (z1Field w == 0#4 && idxField w == 0#8 && dField w == 0#8) (.enc (raField w))
  | 0x5#4 => requireZero (z1Field w == 0#4 && idxField w == 0#8 && dField w == 0#8) (.rdreg (raField w))
  | 0x6#4 => requireZero (z1Field w == 0#4 && idxField w == 0#8 && dField w == 0#8) (.wrreg (raField w))
  | 0x7#4 => requireZero (z1Field w == 0#4 && idxField w == 0#8 && dField w == 0#8) (.rdpair (raField w))
  | 0x8#4 => requireZero (z1Field w == 0#4 && dField w == 0#8) (.rdarr (raField w) (idxField w))
  | 0x9#4 => requireZero (z1Field w == 0#4) (.wrarr (raField w) (idxField w) (dField w))
  | 0xA#4 => requireZero (z1Field w == 0#4 && idxField w == 0#8 && dField w == 0#8) (.rdbank (raField w))
  | 0xB#4 => requireZero (z1Field w == 0#4 && idxField w == 0#8 && dField w == 0#8) (.wrbank (raField w))
  | _ => .error .reservedOpcode

/-! ### Micro-operation words (R92 to R95) -/

/-- R92: `kind = u[10:8]`. -/
def kindField (u : MicroWord) : BitVec 3 := u.extractLsb' 8 3

/-- R92: `payload = u[7:0]`. -/
def payloadField (u : MicroWord) : Byte := u.extractLsb' 0 8

/-- R94: which control code a payload is. -/
def decodeCtrl (p : Byte) : Except Reject Instr :=
  if p = Ctrl.burstStart.code then .ok .ctrlBurstStart
  else if p = Ctrl.burstFinish.code then .ok .ctrlBurstFinish
  else if p = Ctrl.single.code then .ok .ctrlSingle
  else .error .reservedPayload

/-- R92 to R95: the micro-operation a word is, or why it is none. -/
def decodeMicroOp (u : MicroWord) : Except Reject Instr :=
  match kindField u with
  | 0#3 => .ok (.setaddr (u.extractLsb' 1 7) (Dir.ofBit (u.extractLsb' 0 1)))
  | 1#3 => .ok (.put (payloadField u))
  | 2#3 => decodeCtrl (payloadField u)
  | 3#3 => if payloadField u = 0#8 then .ok .poll else .error .reservedPayload
  | 4#3 => if payloadField u = 0#8 then .ok .get else .error .reservedPayload
  | _ => .error .reservedKind

/-- The decoder of both instruction sets. -/
def decode : Encoded → Except Reject Instr
  | .command w => decodeCommand w
  | .microOp u => decodeMicroOp u

/-! ### The encoder, from the same tables -/

/-- R82: format T. -/
def formatT (op : BitVec 4) (sa : SlaveAddr) (ra d : Byte) : Word :=
  op ++ 0#4 ++ 0#1 ++ sa ++ ra ++ d

/-- R83: format R. -/
def formatR (op : BitVec 4) (idx ra d : Byte) : Word :=
  op ++ 0#4 ++ idx ++ ra ++ d

/-- R92: a micro-operation word. -/
def formatU (kind : BitVec 3) (payload : Byte) : MicroWord :=
  kind ++ payload

/-- R85, R92 to R95: the words of an instruction. -/
def encode : Instr → Encoded
  | .recvb sa ra => .command (formatT 0x1 sa ra 0)
  | .sendb sa ra d => .command (formatT 0x2 sa ra d)
  | .dec ra d => .command (formatR 0x3 0 ra d)
  | .enc ra => .command (formatR 0x4 0 ra 0)
  | .rdreg ra => .command (formatR 0x5 0 ra 0)
  | .wrreg ra => .command (formatR 0x6 0 ra 0)
  | .rdpair ra => .command (formatR 0x7 0 ra 0)
  | .rdarr ra idx => .command (formatR 0x8 idx ra 0)
  | .wrarr ra idx d => .command (formatR 0x9 idx ra d)
  | .rdbank ra => .command (formatR 0xA 0 ra 0)
  | .wrbank ra => .command (formatR 0xB 0 ra 0)
  | .setaddr sa dir => .microOp (formatU 0 (sa ++ dir.bit))
  | .put b => .microOp (formatU 1 b)
  | .ctrlBurstStart => .microOp (formatU 2 Ctrl.burstStart.code)
  | .ctrlBurstFinish => .microOp (formatU 2 Ctrl.burstFinish.code)
  | .ctrlSingle => .microOp (formatU 2 Ctrl.single.code)
  | .poll => .microOp (formatU 3 0)
  | .get => .microOp (formatU 4 0)

/-- The micro-operation word of an encoding that is one; a command has none (R92). -/
def Encoded.microWord? : Encoded → Option MicroWord
  | .command _ => none
  | .microOp u => some u

/-- A decoding as an option, without the reason of a rejection. -/
def Reject.toOption {α : Type} : Except Reject α → Option α
  | .ok i => some i
  | .error _ => none

/-- The decoder on a row's bits as spec/opcode_table.json numbers them: rows of at most 16 bits are micro-operation
words (11 bits in whole bytes; the bits above the eleventh must be 0), longer rows are command words. -/
def decodeTableWord (nbits w : Nat) : Option Instr :=
  if nbits ≤ 16 then
    if w < 2 ^ 11 then Reject.toOption (decodeMicroOp (BitVec.ofNat 11 w)) else none
  else if w < 2 ^ 32 then Reject.toOption (decodeCommand (BitVec.ofNat 32 w))
  else none

end Sys2Proof
end

