-- ==== Sys2Proof/Machine/Operands.lean ====
section
/-! DEFINITION. Operand forms: table lookup (30_encoding.md R87), the three addressing modes (43_register_access.md
R170), the bounds rule (R181), the pair combine (R175) and the signed reading of `RW` (R176). -/

namespace Sys2Proof.Machine

/-- R13, R87: `fields(a)`, the field list of `REGTAB[a]`; `none` where the table has no entry. -/
def fieldsOf (c : Config) (ra : Byte) : Option (List Field) :=
  (c.regtab.find? fun e => e.addr == ra).map (·.fields)

/-- R87: the entry of `PAIRTAB` with this `addrH`. -/
def pairOf (c : Config) (ra : Byte) : Option PairEntry :=
  c.pairtab.find? fun e => e.addrH == ra

/-- R87: the entry of `ARRTAB` with this `base`. -/
def arrayOf (c : Config) (ra : Byte) : Option ArrEntry :=
  c.arrtab.find? fun e => e.base == ra

/-- R181: an index is legal exactly when `idx < count`, compared unsigned. -/
def indexLegal (e : ArrEntry) (idx : Byte) : Bool :=
  decide (idx.toNat < e.count)

/-- R86, R170: the address of element `k` of an array at `base`, formed on natural numbers. -/
def elementAddr (base : Byte) (k : Nat) : Byte :=
  BitVec.ofNat 8 (base.toNat + k)

/-- R175: `(zext_16(h) << 8) | zext_16(l)`. -/
def combine (h l : Byte) : Half :=
  (h.zeroExtend 16 <<< 8) ||| l.zeroExtend 16

/-- R176: the two's-complement reading of 16 bits. -/
def signedReading (rw : Half) : Int :=
  if rw.toNat < 0x8000 then (rw.toNat : Int) else (rw.toNat : Int) - 0x10000

/-- R176: the number the 16 bits of `RW` stand for, by the pair's `signed` attribute. No state depends on it. -/
def pairReading (e : PairEntry) (rw : Half) : Int :=
  if e.signed then signedReading rw else (rw.toNat : Int)

/-- R131: what a transaction is described by, `(kind, sa, ra, d)`, with `d` for a send only. -/
inductive Transaction where
  | receive (sa : SlaveAddr) (ra : Byte)
  | send (sa : SlaveAddr) (ra : Byte) (d : Byte)
deriving DecidableEq, Repr

end Sys2Proof.Machine
end

