-- ==== Sys2Proof/Machine/Ops.lean ====
section
/-! DEFINITION. The named operations the meanings are built of: on the registers of the block, refusing a command
(60_exceptions.md R207), starting and ending transactions (41_transactions.md R131, R139), and emitting on the port
(40_bus_port.md R111). -/

namespace Sys2Proof.Machine

/-! ### Registers -/

/-- R81 (1): `CW <- w`, the word of the command. A micro-operation is no command and leaves `CW`. -/
def Block.latch (b : Block) : Encoded → Block
  | .command w => { b with cw := w }
  | .microOp _ => b

/-- R22: `V[0]` to `V[n-1]`. -/
def Block.view (b : Block) (n : Nat) : List Byte :=
  b.v.toList.take n

/-- Put the values into consecutive entries of a register file from entry `i` on. -/
def storeFrom {n : Nat} (i : Nat) : List Byte → Vector Byte n → Vector Byte n
  | [], f => f
  | x :: xs, f => storeFrom (i + 1) xs (f.setIfInBounds i x)

/-- R22: `V[0..n-1] <- vals`, `V[n..7]` unchanged. -/
def Block.setView (b : Block) (vals : List Byte) : Block :=
  { b with v := storeFrom 0 vals b.v }

/-- R25: `BUF[k]`. Well-formed tables keep `k` below `BUF_LEN` (R10); above it there is no entry and the model reads 0,
which no run of the block does (DESIGN CHOICE, log entry 11, safe). -/
def Block.bufAt (b : Block) (k : Nat) : Byte :=
  b.buf[k]?.getD 0#8

/-- R25: `BUF[k] <- x`. -/
def Block.setBuf (b : Block) (k : Nat) (x : Byte) : Block :=
  { b with buf := b.buf.setIfInBounds k x }

/-! ### Refusing a command: the block's "trap entry" -/

/-- R207, `raise X`: `ERR <- code(X)`; `DONE <- 1`; `BUSY` and `(EC, PH)` stay; `CW` holds the refused word already.
Nothing else changes, no state is saved and control goes nowhere. There is no return from it (R211): the accept step
of the next command clears `ERR` (`Block.accept`, `Block.complete`). -/
def Block.raise (b : Block) (e : ErrCode) : Block :=
  b.flagsRefused e

/-! ### Transactions -/

/-- R131: load the latches of a transaction and set `PH <- 0`. A receive leaves `TWD`. -/
def Block.start (b : Block) : Transaction → Block
  | .receive sa ra => { b with tk := .receive, tsa := sa, tra := ra, ph := 0#3 }
  | .send sa ra d => { b with tk := .send, tsa := sa, tra := ra, twd := d, ph := 0#3 }

/-- R81 (4): accept a command that needs the bus, with its first transaction. -/
def Block.accept (b : Block) (t : Transaction) : Block :=
  { b.flagsRunning with ec := 0#5 }.start t

/-- R81 (4): the end of a `DEC` or `ENC`, in its accept step. -/
def Block.complete (b : Block) : Block :=
  b.flagsAtOnce

/-- R28, R139: end the command, `(EC, PH) <- (0, 0)`. -/
def Block.finish (b : Block) : Block :=
  { b.flagsEnded with ec := 0#5, ph := 0#3 }

/-- R139: with a further transaction, start it with `EC <- EC + 1`; without one, end the command. -/
def Block.advance (b : Block) : Option Transaction → Block
  | some t => { b with ec := b.ec + 1#5 }.start t
  | none => b.finish

/-- R28: `PH <- PH + 1`. -/
def Block.nextPhase (b : Block) : Block :=
  { b with ph := b.ph + 1#3 }

/-! ### The machine around the block -/

/-- The state with another block state, nothing else changed. -/
def State.withBlock (s : State) (b : Block) : State :=
  { s with block := b }

/-- R111: present the word on the port, so that the environment moves to `e`, and append it with its answer to the
trace. -/
def State.emit (s : State) (w : Encoded) (a : Answer) (e : Env) : State :=
  match w.microWord? with
  | some u => { s with env := e, trace := s.trace ++ [⟨u, a⟩] }
  | none => { s with env := e }

end Sys2Proof.Machine
end

