-- ==== Sys2Proof/Machine/Arrays.lean ====
section
/-! DEFINITION. Array registers: `RDARR`, `WRARR`, `RDBANK`, `WRBANK` (43_register_access.md R177 to R181). The checks
come in the order of 60_exceptions.md R208: the table first, then the index. -/

namespace Sys2Proof.Machine

/-! ### RDARR -/

/-- R182: receive(`SLAVE_ADDR`, `ra + idx`). -/
def rdarrTransactions (c : Config) (ra idx : Byte) : List Transaction :=
  [.receive c.slaveAddr (elementAddr ra idx.toNat)]

/-- R177: `RDARR ra, idx`, the accept step. -/
def execRdarr (ra idx : Byte) (s : State) : Result :=
  let b := s.block.latch (encode (.rdarr ra idx))
  match arrayOf s.cfg ra with
  | none => .next (s.withBlock (b.raise .unknownRegister))
  | some e =>
    if indexLegal e idx then .next (s.withBlock (b.accept (.receive s.cfg.slaveAddr (elementAddr ra idx.toNat))))
    else .next (s.withBlock (b.raise .invalidIndex))

/-! ### WRARR -/

/-- R182: send(`SLAVE_ADDR`, `ra + idx`, `d`). -/
def wrarrTransactions (c : Config) (ra idx d : Byte) : List Transaction :=
  [.send c.slaveAddr (elementAddr ra idx.toNat) d]

/-- R178: `WRARR ra, idx, d`, the accept step. -/
def execWrarr (ra idx d : Byte) (s : State) : Result :=
  let b := s.block.latch (encode (.wrarr ra idx d))
  match arrayOf s.cfg ra with
  | none => .next (s.withBlock (b.raise .unknownRegister))
  | some e =>
    if indexLegal e idx then .next (s.withBlock (b.accept (.send s.cfg.slaveAddr (elementAddr ra idx.toNat) d)))
    else .next (s.withBlock (b.raise .invalidIndex))

/-! ### RDBANK -/

/-- R182: receive(`SLAVE_ADDR`, `ra + k`) for `k` = 0 .. `count - 1`. -/
def rdbankTransactions (c : Config) (ra : Byte) : List Transaction :=
  match arrayOf c ra with
  | none => []
  | some e => (List.range e.count).map fun k => .receive c.slaveAddr (elementAddr ra k)

/-- R179: `RDBANK ra`, the accept step. -/
def execRdbank (ra : Byte) (s : State) : Result :=
  let b := s.block.latch (encode (.rdbank ra))
  match arrayOf s.cfg ra with
  | none => .next (s.withBlock (b.raise .unknownRegister))
  | some _ => .next (s.withBlock (b.accept (.receive s.cfg.slaveAddr (elementAddr ra 0))))

/-- R179, end k: `BUF[k] <- x`, with `k` = `EC` and `x` the byte phase 7 has just put in `RD`. -/
def rdbankCollect (b : Block) : Block :=
  b.setBuf b.ec.toNat b.rd

/-! ### WRBANK -/

/-- R182: send(`SLAVE_ADDR`, `ra + k`, `BUF[k]`) for `k` = 0 .. `count - 1`. -/
def wrbankTransactions (c : Config) (ra : Byte) (b : Block) : List Transaction :=
  match arrayOf c ra with
  | none => []
  | some e => (List.range e.count).map fun k => .send c.slaveAddr (elementAddr ra k) (b.bufAt k)

/-- R180: `WRBANK ra`, the accept step. -/
def execWrbank (ra : Byte) (s : State) : Result :=
  let b := s.block.latch (encode (.wrbank ra))
  match arrayOf s.cfg ra with
  | none => .next (s.withBlock (b.raise .unknownRegister))
  | some _ => .next (s.withBlock (b.accept (.send s.cfg.slaveAddr (elementAddr ra 0) (b.bufAt 0))))

end Sys2Proof.Machine
end

