-- ==== Sys2Proof/Machine/Codec.lean ====
section
/-! DEFINITION. The bit-field codec (42_codec.md): the functions `decode` and `encode` of a field list, and the commands
`DEC` and `ENC`. All shifts and masks are computed on natural numbers (00_scope.md R12). -/

namespace Sys2Proof.Machine

/-- R152: the mask of a field, `(1 << w) - 1`. -/
def fieldMask (f : Field) : Nat :=
  (1 <<< f.width) - 1

/-- R150: `(b >> off) & ((1 << w) - 1)`. -/
def fieldValue (f : Field) (b : Byte) : Byte :=
  BitVec.ofNat 8 ((b.toNat >>> f.offset) &&& fieldMask f)

/-- R150: `decode(a, b)` over the field list of `a`. -/
def decodeFields (fs : List Field) (b : Byte) : List Byte :=
  fs.map fun f => fieldValue f b

/-- R151: what a field contributes, `(v & mask) << off`. -/
def fieldBits (f : Field) (v : Byte) : Nat :=
  (v.toNat &&& fieldMask f) <<< f.offset

/-- R151: the bitwise or of the fields' contributions. -/
def encodeNat : List Field → List Byte → Nat
  | f :: fs, v :: vs => fieldBits f v ||| encodeNat fs vs
  | _, _ => 0

/-- R151: `encode(a, v)` over the field list of `a`, truncated to 8 bits. -/
def encodeFields (fs : List Field) (vs : List Byte) : Byte :=
  BitVec.ofNat 8 (encodeNat fs vs)

/-- R152: the or of the placed masks. -/
def coveredNat : List Field → Nat
  | [] => 0
  | f :: fs => (fieldMask f <<< f.offset) ||| coveredNat fs

/-- R152: `cov(a)`, the covered mask of a register. -/
def coveredMask (fs : List Field) : Byte :=
  BitVec.ofNat 8 (coveredNat fs)

/-- R153: `DEC ra, d`. -/
def execDec (ra d : Byte) (s : State) : Result :=
  let b := s.block.latch (encode (.dec ra d))
  match fieldsOf s.cfg ra with
  | none => .next (s.withBlock (b.raise .unknownRegister))
  | some fs => .next (s.withBlock (b.setView (decodeFields fs d)).complete)

/-- R154: `ENC ra`. -/
def execEnc (ra : Byte) (s : State) : Result :=
  let b := s.block.latch (encode (.enc ra))
  match fieldsOf s.cfg ra with
  | none => .next (s.withBlock (b.raise .unknownRegister))
  | some fs => .next (s.withBlock { b with rd := encodeFields fs (b.view fs.length) }.complete)

end Sys2Proof.Machine
end

