-- ==== Sys2Proof/Machine/Env.lean ====
section
/-! DEFINITION. The environment as the block sees it (40_bus_port.md R119): busy bits answered to `POLL` and bytes
answered to `GET`. In the free environment both are draws and nothing else happens. In the reference environment the
bus controller of R121 and the slave of R122 answer, and the wire of R115, R116 and R124 is recorded. -/

namespace Sys2Proof.Machine

/-! ### Draws -/

/-- The next drawn busy bit. -/
def Draws.busyValue (d : Draws) : Bool :=
  d.busy.head?.getD (Config.freeBusy d.taken)

/-- The draws after one busy bit. -/
def Draws.afterBusy (d : Draws) : Draws :=
  match d.busy with
  | [] => { d with taken := d.taken + 1 }
  | _ :: rest => { d with busy := rest }

/-- The next drawn byte. -/
def Draws.byteValue (d : Draws) : Byte :=
  d.byte.head?.getD (Config.freeByte d.taken)

/-- The draws after one byte. -/
def Draws.afterByte (d : Draws) : Draws :=
  match d.byte with
  | [] => { d with taken := d.taken + 1 }
  | _ :: rest => { d with byte := rest }

/-- The next drawn number of busy `POLL`s. -/
def Draws.countValue (d : Draws) : Nat :=
  d.count.head?.getD (Config.freeCount d.taken)

/-- The draws after one number. -/
def Draws.afterCount (d : Draws) : Draws :=
  match d.count with
  | [] => { d with taken := d.taken + 1 }
  | _ :: rest => { d with count := rest }

/-! ### The reference slave (R122) -/

/-- What the reference slave holds at an address: the byte last written, or an unknown initial one (log entry 5). -/
def Env.slvAt (e : Env) (a : Byte) : Byte :=
  (e.slv.read a).getD (Config.slaveInitial a)

/-- R122, `slave_write(sa, bytes)`: the address and byte stored, if any. The first byte is the register address, the
second the data; no store without a second byte, and none at another slave address (R123). -/
def Env.slaveStore (e : Env) (sa : SlaveAddr) (bytes : List Byte) : Option (Byte × Byte) :=
  if sa = e.devAddr then
    match bytes with
    | a :: d :: _ => some (a, d)
    | _ => none
  else none

/-- R122, `slave_write(sa, bytes)`: `PTR <- bytes[0]` and the store; nothing at another slave address. -/
def Env.slaveWrite (e : Env) (sa : SlaveAddr) (bytes : List Byte) : Env :=
  { e with
    ptr := if sa = e.devAddr then bytes.head?.getD e.ptr else e.ptr
    slv := match e.slaveStore sa bytes with
      | some (a, d) => e.slv.write a d
      | none => e.slv }

/-- R122, `slave_read(sa)`: `SLV[PTR]`, or a draw at another slave address. -/
def Env.slaveReadValue (e : Env) (sa : SlaveAddr) : Byte :=
  if sa = e.devAddr then e.slvAt e.ptr else e.draws.byteValue

/-- The draws after a `slave_read(sa)`. -/
def Env.slaveReadDraws (e : Env) (sa : SlaveAddr) : Draws :=
  if sa = e.devAddr then e.draws else e.draws.afterByte

/-! ### The reference bus controller (R121) -/

/-- `sa = MSA[7:1]`. -/
def Env.msaAddr (e : Env) : SlaveAddr := e.msa.extractLsb' 1 7

/-- `MSA[0]`, the direction. -/
def Env.msaDir (e : Env) : Dir := Dir.ofBit (e.msa.extractLsb' 0 1)

/-- The receiver's answer to a byte sent to slave address `sa`: ACK from the device, NACK where none answers (R123; DESIGN CHOICE,
log entry 12, unsafe for claims about that wire). -/
def Env.ackOf (e : Env) (sa : SlaveAddr) : WireSym :=
  if sa = e.devAddr then .ack else .nack

/-- R115: what the controller puts on the wire for a `BURST_START` in write direction. -/
def Env.wireBurstStart (e : Env) (sa : SlaveAddr) : List WireSym :=
  [.start, .addr sa .write, e.ackOf sa, .data e.mdr, e.ackOf sa]

/-- R115: for a `BURST_FINISH`, whose bytes go to the slave address of the open transaction. -/
def Env.wireBurstFinish (e : Env) (sa : SlaveAddr) : List WireSym :=
  [.data e.mdr, e.ackOf sa, .stop]

/-- R115: for a `SINGLE` in write direction. -/
def Env.wireSingleWrite (e : Env) (sa : SlaveAddr) : List WireSym :=
  [.start, .addr sa .write, e.ackOf sa, .data e.mdr, e.ackOf sa, .stop]

/-- R116: for a `SINGLE` in read direction, with a repeated START if a write transaction is still open; the master
answers the one byte with NACK. -/
def Env.wireSingleRead (e : Env) (sa : SlaveAddr) (x : Byte) : List WireSym :=
  [if e.opn.isSome then .repStart else .start, .addr sa .read, e.ackOf sa, .data x, .nack, .stop]

/-- R121: `BUSYN <- ` a drawn number, with every `CTRL`. -/
def Env.drawBusyn (e : Env) : Env :=
  { e with busyn := e.draws.countValue, draws := e.draws.afterCount }

/-- R121, `CTRL(3)`: `OPEN <- (sa, [MDR])` in write direction. The whole piece of R115 is put on the wire in this step,
while `BUSYN` is still to count down (DESIGN CHOICE, log entry 18, unsafe for claims about the wire in a busy-wait). -/
def Env.refBurstStart (e : Env) : Option Env :=
  match e.msaDir with
  | .write =>
    let e1 := e.drawBusyn
    some { e1 with opn := some ⟨e.msaAddr, [e.mdr]⟩, wire := e.wire ++ e.wireBurstStart e.msaAddr }
  | .read => none

/-- R121, `CTRL(5)`: `slave_write(OPEN.sa, OPEN.bytes ++ [MDR])`, `OPEN <- empty`, in write direction; no step where
`OPEN` is empty, since there is then no `OPEN.sa` (DESIGN CHOICE, log entry 10, safe). The whole piece of R115 is put on
the wire in this step (DESIGN CHOICE, log entry 18, unsafe for claims about the wire in a busy-wait). -/
def Env.refBurstFinish (e : Env) : Option Env :=
  match e.msaDir, e.opn with
  | .write, some o =>
    let e1 := (e.drawBusyn).slaveWrite o.sa (o.bytes ++ [e.mdr])
    some { e1 with opn := none, wire := e.wire ++ e.wireBurstFinish o.sa }
  | _, _ => none

/-- R121, the first half of a `CTRL(7)` in read direction: an open write transaction is ended by the START. -/
def Env.closeOpen (e : Env) : Env :=
  match e.opn with
  | some o => { e.slaveWrite o.sa o.bytes with opn := none }
  | none => e

/-- R121, `CTRL(7)`: in write direction `slave_write(sa, [MDR])`; in read direction an open write transaction is ended,
then `MDR <- slave_read(sa)`. The whole piece of R115 or R116 is put on the wire in this step (DESIGN CHOICE, log entry 18,
unsafe for claims about the wire in a busy-wait). -/
def Env.refSingle (e : Env) : Option Env :=
  match e.msaDir with
  | .write =>
    let e1 := (e.drawBusyn).slaveWrite e.msaAddr [e.mdr]
    some { e1 with wire := e.wire ++ e.wireSingleWrite e.msaAddr }
  | .read =>
    let e1 := (e.drawBusyn).closeOpen
    let x := e1.slaveReadValue e.msaAddr
    some { e1 with mdr := x, draws := e1.slaveReadDraws e.msaAddr, wire := e.wire ++ e.wireSingleRead e.msaAddr x }

/-! ### The port, in either environment -/

/-- `SETADDR(p)`: `MSA <- p` (R112, R121). -/
def Env.setAddr (e : Env) (p : Byte) : Env :=
  match e.mode with
  | .free => e
  | .reference => { e with msa := p }

/-- `PUT(b)`: `MDR <- b` (R113, R121). -/
def Env.put (e : Env) (b : Byte) : Env :=
  match e.mode with
  | .free => e
  | .reference => { e with mdr := b }

/-- `CTRL(c)` (R114, R121); `none` where the reference controller has no step. -/
def Env.ctrl (e : Env) (c : Ctrl) : Option Env :=
  match e.mode with
  | .free => some e
  | .reference =>
    match c with
    | .burstStart => e.refBurstStart
    | .burstFinish => e.refBurstFinish
    | .single => e.refSingle

/-- R117, R119, R121: the busy bit answered to a `POLL`. -/
def Env.busyAnswer (e : Env) : Bool :=
  match e.mode with
  | .free => e.draws.busyValue
  | .reference => decide (0 < e.busyn)

/-- The environment after a `POLL`. -/
def Env.afterPoll (e : Env) : Env :=
  match e.mode with
  | .free => { e with draws := e.draws.afterBusy }
  | .reference => { e with busyn := e.busyn - 1 }

/-- R118, R119, R121: the byte answered to a `GET`. -/
def Env.byteAnswer (e : Env) : Byte :=
  match e.mode with
  | .free => e.draws.byteValue
  | .reference => e.mdr

/-- The environment after a `GET`. -/
def Env.afterGet (e : Env) : Env :=
  match e.mode with
  | .free => { e with draws := e.draws.afterByte }
  | .reference => e

end Sys2Proof.Machine
end

