-- ==== Sys2Proof/Machine/Registers.lean ====
section
/-! DEFINITION. Single-byte registers and two-byte registers: `RDREG`, `WRREG`, `RDPAIR` (43_register_access.md R171 to
R176). All to slave address `SLAVE_ADDR` (R170). -/

namespace Sys2Proof.Machine

/-! ### RDREG -/

/-- R182: receive(`SLAVE_ADDR`, `ra`). -/
def rdregTransactions (c : Config) (ra : Byte) : List Transaction :=
  [.receive c.slaveAddr ra]

/-- R171: `RDREG ra`, the accept step. -/
def execRdreg (ra : Byte) (s : State) : Result :=
  let b := s.block.latch (encode (.rdreg ra))
  match fieldsOf s.cfg ra with
  | none => .next (s.withBlock (b.raise .unknownRegister))
  | some _ => .next (s.withBlock (b.accept (.receive s.cfg.slaveAddr ra)))

/-- R171, end: `V[0..n-1] <- decode(ra, x)`, with `x` the byte phase 7 has just put in `RD`. -/
def rdregCollect (c : Config) (ra : Byte) (b : Block) : Block :=
  match fieldsOf c ra with
  | none => b
  | some fs => b.setView (decodeFields fs b.rd)

/-! ### WRREG -/

/-- R173: `e <- encode(ra, [V[0], ..., V[n-1]])`. -/
def wrregByte (fs : List Field) (b : Block) : Byte :=
  encodeFields fs (b.view fs.length)

/-- R182: send(`SLAVE_ADDR`, `ra`, `encode(ra, V)`). -/
def wrregTransactions (c : Config) (ra : Byte) (b : Block) : List Transaction :=
  match fieldsOf c ra with
  | none => []
  | some fs => [.send c.slaveAddr ra (wrregByte fs b)]

/-- R173: `WRREG ra`, the accept step. -/
def execWrreg (ra : Byte) (s : State) : Result :=
  let b := s.block.latch (encode (.wrreg ra))
  match fieldsOf s.cfg ra with
  | none => .next (s.withBlock (b.raise .unknownRegister))
  | some fs => .next (s.withBlock (b.accept (.send s.cfg.slaveAddr ra (wrregByte fs b))))

/-! ### RDPAIR -/

/-- R182: receive(`SLAVE_ADDR`, `addrH`), receive(`SLAVE_ADDR`, `addrL`). -/
def rdpairTransactions (c : Config) (ra : Byte) : List Transaction :=
  match pairOf c ra with
  | none => []
  | some p => [.receive c.slaveAddr ra, .receive c.slaveAddr p.addrL]

/-- R175: `RDPAIR ra`, the accept step. -/
def execRdpair (ra : Byte) (s : State) : Result :=
  let b := s.block.latch (encode (.rdpair ra))
  match pairOf s.cfg ra with
  | none => .next (s.withBlock (b.raise .unknownRegister))
  | some _ => .next (s.withBlock (b.accept (.receive s.cfg.slaveAddr ra)))

/-- R175, end 0 and end 1: `HI <- h`, then `RW <- (zext_16(HI) << 8) | zext_16(l)`, with `h` and `l` the byte phase 7
has just put in `RD`. -/
def rdpairCollect (b : Block) : Block :=
  if b.ec = 0#5 then { b with hi := b.rd } else { b with rw := combine b.hi b.rd }

end Sys2Proof.Machine
end

