-- ==== Sys2Proof/Machine/Transactions.lean ====
section
/-! DEFINITION. The two leaf commands, `RECVB` and `SENDB` (41_transactions.md R134, R137). Each command that uses the
bus has a definition for its accept step, one for the list of its transactions (R182) and, where it collects something,
one for "transaction `EC` has ended" (R139). -/

namespace Sys2Proof.Machine

/-- R182: receive(`sa`, `ra`). -/
def recvbTransactions (sa : SlaveAddr) (ra : Byte) : List Transaction :=
  [.receive sa ra]

/-- R134: `RECVB sa, ra`, the accept step. -/
def execRecvb (sa : SlaveAddr) (ra : Byte) (s : State) : Result :=
  let b := s.block.latch (encode (.recvb sa ra))
  .next (s.withBlock (b.accept (.receive sa ra)))

/-- R182: send(`sa`, `ra`, `d`). -/
def sendbTransactions (sa : SlaveAddr) (ra d : Byte) : List Transaction :=
  [.send sa ra d]

/-- R137: `SENDB sa, ra, d`, the accept step. -/
def execSendb (sa : SlaveAddr) (ra d : Byte) (s : State) : Result :=
  let b := s.block.latch (encode (.sendb sa ra d))
  .next (s.withBlock (b.accept (.send sa ra d)))

end Sys2Proof.Machine
end

