-- ==== Sys2Proof/Machine/Sequencer.lean ====
section
/-! DEFINITION. The sequencer (41_transactions.md R130 to R139): which micro-operation a phase emits, which transactions
the running command has (43_register_access.md R182), and what the end of a transaction does. -/

namespace Sys2Proof.Machine

/-- The `CTRL` micro-operation of a control code (R94). -/
def ctrlInstr : Ctrl → Instr
  | .burstStart => .ctrlBurstStart
  | .burstFinish => .ctrlBurstFinish
  | .single => .ctrlSingle

/-- R133: the phase table of the receive engine. -/
def receiveOp (c : Config) (b : Block) : Instr :=
  match b.ph with
  | 0#3 => .setaddr b.tsa .write
  | 1#3 => .put b.tra
  | 2#3 => ctrlInstr c.recvWriteCtrl
  | 3#3 => .poll
  | 4#3 => .setaddr b.tsa .read
  | 5#3 => .ctrlSingle
  | 6#3 => .poll
  | _ => .get

/-- R136: the phase table of the send engine; it has no phase 7. -/
def sendOp (b : Block) : Option Instr :=
  match b.ph with
  | 0#3 => some (.setaddr b.tsa .write)
  | 1#3 => some (.put b.tra)
  | 2#3 => some .ctrlBurstStart
  | 3#3 => some .poll
  | 4#3 => some (.put b.twd)
  | 5#3 => some .ctrlBurstFinish
  | 6#3 => some .poll
  | _ => none

/-- R130: the micro-operation of the step the sequencer takes at `(TK, PH)`. -/
def currentOp (c : Config) (b : Block) : Option Instr :=
  match b.tk with
  | .receive => some (receiveOp c b)
  | .send => sendOp b

/-- R182: the transactions of a command, in order; `DEC` and `ENC` have none, and a micro-operation is no command. -/
def transactionsOf (c : Config) (b : Block) : Instr → List Transaction
  | .recvb sa ra => recvbTransactions sa ra
  | .sendb sa ra d => sendbTransactions sa ra d
  | .dec _ _ => []
  | .enc _ => []
  | .rdreg ra => rdregTransactions c ra
  | .wrreg ra => wrregTransactions c ra b
  | .rdpair ra => rdpairTransactions c ra
  | .rdarr ra idx => rdarrTransactions c ra idx
  | .wrarr ra idx d => wrarrTransactions c ra idx d
  | .rdbank ra => rdbankTransactions c ra
  | .wrbank ra => wrbankTransactions c ra b
  | .setaddr _ _ => []
  | .put _ => []
  | .ctrlBurstStart => []
  | .ctrlBurstFinish => []
  | .ctrlSingle => []
  | .poll => []
  | .get => []

/-- R139: what the running command says for "transaction `EC` has ended". The commands not named collect nothing. -/
def collect (c : Config) (i : Instr) (b : Block) : Block :=
  match i with
  | .rdreg ra => rdregCollect c ra b
  | .rdpair _ => rdpairCollect b
  | .rdbank _ => rdbankCollect b
  | .recvb _ _ => b
  | .sendb _ _ _ => b
  | .dec _ _ => b
  | .enc _ => b
  | .wrreg _ => b
  | .rdarr _ _ => b
  | .wrarr _ _ _ => b
  | .wrbank _ => b
  | .setaddr _ _ => b
  | .put _ => b
  | .ctrlBurstStart => b
  | .ctrlBurstFinish => b
  | .ctrlSingle => b
  | .poll => b
  | .get => b

/-- R139: the rest of the step that ends a transaction, for the command in `CW` (R26: "the sequencer reads its fields
while the command runs"). A `CW` that holds no command never has `BUSY` 1; the command is then simply over (DESIGN CHOICE, log entry 11, safe). -/
def endTransaction (c : Config) (b : Block) : Block :=
  match decodeCommand b.cw with
  | .error _ => b.finish
  | .ok i =>
    let b' := collect c i b
    b'.advance ((transactionsOf c b' i)[b.ec.toNat + 1]?)

end Sys2Proof.Machine
end

