-- ==== Sys2Proof/Machine/MicroOps.lean ====
section
/-! DEFINITION. The micro-operations (40_bus_port.md R112 to R118): each emits its word on the port, the environment
moves, and the block takes the phase step of 41_transactions.md R28, R132, R133, R136. -/

namespace Sys2Proof.Machine

/-- A `CTRL` micro-operation (R114): emit it, then `PH <- PH + 1`. It stops where the reference controller has no step
for it (R121), which the block never asks for. -/
def emitCtrl (c : Ctrl) (w : Encoded) (s : State) : Result :=
  match s.env.ctrl c with
  | none => .fault .noControllerStep
  | some e => .next ((s.emit w .nothing e).withBlock s.block.nextPhase)

/-- R132: what a busy answer `a` of a `POLL` does to the block: stay when busy; otherwise the next phase, or in the last
phase of a send the end of the transaction. -/
def Block.afterPoll (c : Config) (a : Bool) (b : Block) : Block :=
  if a then b
  else
    match b.tk, b.ph with
    | .send, 6#3 => endTransaction c b
    | _, _ => b.nextPhase

/-- R118, R133 phase 7: `RD <- x`, and the transaction ends. -/
def Block.afterGet (c : Config) (x : Byte) (b : Block) : Block :=
  endTransaction c { b with rd := x }

/-- R112: `SETADDR sa, dir`. -/
def execSetaddr (sa : SlaveAddr) (dir : Dir) (s : State) : Result :=
  .next ((s.emit (encode (.setaddr sa dir)) .nothing (s.env.setAddr (sa ++ dir.bit))).withBlock s.block.nextPhase)

/-- R113: `PUT b`. -/
def execPut (b : Byte) (s : State) : Result :=
  .next ((s.emit (encode (.put b)) .nothing (s.env.put b)).withBlock s.block.nextPhase)

/-- R114: `CTRL BURST_START`. -/
def execCtrlBurstStart (s : State) : Result :=
  emitCtrl .burstStart (encode .ctrlBurstStart) s

/-- R114: `CTRL BURST_FINISH`. -/
def execCtrlBurstFinish (s : State) : Result :=
  emitCtrl .burstFinish (encode .ctrlBurstFinish) s

/-- R114: `CTRL SINGLE`. -/
def execCtrlSingle (s : State) : Result :=
  emitCtrl .single (encode .ctrlSingle) s

/-- R117, R132: `POLL`. -/
def execPoll (s : State) : Result :=
  .next ((s.emit (encode .poll) (.busy s.env.busyAnswer) s.env.afterPoll).withBlock
    (s.block.afterPoll s.cfg s.env.busyAnswer))

/-- R118, R133 phase 7: `GET`. -/
def execGet (s : State) : Result :=
  .next ((s.emit (encode .get) (.data s.env.byteAnswer) s.env.afterGet).withBlock
    (s.block.afterGet s.cfg s.env.byteAnswer))

end Sys2Proof.Machine
end

