-- ==== Sys2Proof/Machine/Dispatch.lean ====
section
/-! DEFINITION. The meaning of every instruction, one arm per constructor of `Instr`. For a command it is the accept
step (30_encoding.md R81); for a micro-operation the sequencer step that emits it (41_transactions.md R130). -/

namespace Sys2Proof.Machine

def exec (i : Instr) (s : State) : Host.Outcome State Fault Refusal :=
  match i with
  | .recvb sa ra => Sys2Proof.Machine.execRecvb sa ra s
  | .sendb sa ra d => Sys2Proof.Machine.execSendb sa ra d s
  | .dec ra d => Sys2Proof.Machine.execDec ra d s
  | .enc ra => Sys2Proof.Machine.execEnc ra s
  | .rdreg ra => Sys2Proof.Machine.execRdreg ra s
  | .wrreg ra => Sys2Proof.Machine.execWrreg ra s
  | .rdpair ra => Sys2Proof.Machine.execRdpair ra s
  | .rdarr ra idx => Sys2Proof.Machine.execRdarr ra idx s
  | .wrarr ra idx d => Sys2Proof.Machine.execWrarr ra idx d s
  | .rdbank ra => Sys2Proof.Machine.execRdbank ra s
  | .wrbank ra => Sys2Proof.Machine.execWrbank ra s
  | .setaddr sa dir => Sys2Proof.Machine.execSetaddr sa dir s
  | .put b => Sys2Proof.Machine.execPut b s
  | .ctrlBurstStart => Sys2Proof.Machine.execCtrlBurstStart s
  | .ctrlBurstFinish => Sys2Proof.Machine.execCtrlBurstFinish s
  | .ctrlSingle => Sys2Proof.Machine.execCtrlSingle s
  | .poll => Sys2Proof.Machine.execPoll s
  | .get => Sys2Proof.Machine.execGet s

end Sys2Proof.Machine
end

