-- ==== Sys2Proof/Machine/HostPort.lean ====
section
/-! DEFINITION. The host port (10_state.md R35 to R42): reads, writes, the hold, the reset input. -/

namespace Sys2Proof.Machine

/-- R35, R40, R41: what a host read of register number `n` returns: the register in the low bits, 0 above it, and
0x00000000 for an unmapped number. A read changes nothing in the block. -/
def Block.readPort (b : Block) (n : Nat) : Word :=
  if n = 0 then b.cw
  else if n = 1 then b.status
  else if n = 2 then b.rd.zeroExtend 32
  else if n = 3 then b.rw.zeroExtend 32
  else if 8 ≤ n ∧ n ≤ 15 then (b.v[n - 8]?.getD 0#8).zeroExtend 32
  else if 32 ≤ n ∧ n ≤ 55 then (b.buf[n - 32]?.getD 0#8).zeroExtend 32
  else 0#32

/-- R39, R41: a transferred write to a number other than `CMD`: `V[i]` or `BUF[i]` takes `w[7:0]`; a read-only or
unmapped number changes nothing. -/
def Block.writePort (b : Block) (n : Nat) (w : Word) : Block :=
  if 8 ≤ n ∧ n ≤ 15 then { b with v := b.v.setIfInBounds (n - 8) (w.extractLsb' 0 8) }
  else if 32 ≤ n ∧ n ≤ 55 then { b with buf := b.buf.setIfInBounds (n - 32) (w.extractLsb' 0 8) }
  else b

/-- R81, R202, R207: a transferred write of a word that is no command: `CW <- w`, then `raise ILLEGAL_COMMAND`. -/
def Block.refuseIllegal (b : Block) (w : Word) : Block :=
  { b with cw := w }.raise .illegalCommand

/-- R39, R81: a host write transfers. A write to `CMD` is the accept step of the command the word is. -/
def hostWrite (n : Nat) (w : Word) (s : State) : Result :=
  if n = 0 then
    match decodeCommand w with
    | .ok i => exec i s
    | .error _ => .next (s.withBlock (s.block.refuseIllegal w))
  else .next (s.withBlock (s.block.writePort n w))

/-- R43, R230: the control state under reset; the data registers and hidden latches are not touched. -/
def Block.resetControl (b : Block) : Block :=
  { b with cw := 0#32, busy := false, done := false, err := .none, ec := 0#5, ph := 0#3 }

/-- R230, R231: the reset input. The running command is abandoned, a held write is dropped, nothing is emitted, and the
environment is not told. The trace begins anew: it is what was emitted "since reset" (R16; DEDUCED, log entry 7, unsafe).
That the reference bus controller goes on with what it held (`MSA`, `MDR`, `OPEN`, `BUSYN`), and the wire and the slave
with it, is the model's choice: after a reset in mid-command R233 puts them outside the spec and U20 allows any value
(DESIGN CHOICE, log entry 16, unsafe). -/
def State.resetInput (s : State) : State :=
  { s with block := s.block.resetControl, held := none, trace := [] }

/-- R38: a move of the host. A write while `BUSY` is 1 is held (R39); a read returns the register's value (R40). -/
def hostMove (m : HostMove) (s : State) : Result :=
  match m with
  | .write n w => if s.block.busy then .next { s with held := some ⟨n, w⟩ } else hostWrite n w s
  | .read n => .next { s with reads := s.reads ++ [⟨n, s.block.readPort n⟩] }
  | .wait => .next s
  | .reset => .next s.resetInput

/-- R42: `hready` is 0 exactly when a write is held, that is, pending while `BUSY` is 1 (R39). The last step of the running
command lifts the hold (R139): in the state after it, where the pending write transfers, `hready` is 1. -/
def State.hready (s : State) : Bool :=
  !(s.block.busy && s.held.isSome)

end Sys2Proof.Machine
end

