-- ==== Sys2Proof/Machine/Fetch.lean ====
section
/-! DEFINITION. Where the next instruction comes from. Nothing is fetched from a memory (30_encoding.md R80, 20_memory.md
R53): a command comes from the host's next write to `CMD`, a micro-operation from the sequencer's position. The order in
which the agents step is the list of turns (DESIGN CHOICE, log entry 3); where a word is placed for the next step to run
it is log entry 9 (DESIGN CHOICE). -/

namespace Sys2Proof.Machine

/-- The sequencer's step while `BUSY` is 1: the micro-operation of `(TK, PH)` (R130). -/
def sequencerStep (s : State) : Result :=
  match currentOp s.cfg s.block with
  | some i => exec i s
  | none => .fault .noPhase

/-- R130: "While `BUSY` is 0 the sequencer has no step." -/
def sequencerTurn (s : State) : Result :=
  if s.block.busy then sequencerStep s else .next s

/-- One turn of an agent, with no held write in the way. -/
def takeTurn (s : State) : Result :=
  match s.turns with
  | [] => sequencerTurn s
  | .sequencer :: rest => sequencerTurn { s with turns := rest }
  | .host m :: rest => hostMove m { s with turns := rest }

/-- One turn while a host write is held: the host has no step but the reset input (R14, R39, R230). -/
def takeTurnHeld (s : State) : Result :=
  match s.turns with
  | .host .reset :: rest => hostMove .reset { s with turns := rest }
  | .sequencer :: rest => sequencerTurn { s with turns := rest }
  | _ => sequencerTurn s

/-- One step of the machine: a held write transfers in the first state in which `BUSY` is 0 (R39); otherwise the agent
whose turn it is steps. -/
def nextStep (s : State) : Result :=
  match s.held with
  | some h => if s.block.busy then takeTurnHeld s else hostWrite h.num h.word { s with held := none }
  | none => takeTurn s

/-- The state in which the host's next move writes the word to `CMD` and the write transfers. -/
def State.withCommand (s : State) (w : Word) : State :=
  { s with turns := .host (.write 0 w) :: s.turns, held := none, block := { s.block with busy := false } }

/-- The block inside a `RECVB` or `SENDB` of the transaction in its latches, with the phase given. -/
def Block.inTransaction (b : Block) (ph : BitVec 3) : Block :=
  let i := match b.tk with
    | .receive => Instr.recvb b.tsa b.tra
    | .send => Instr.sendb b.tsa b.tra b.twd
  { b.flagsRunning with ec := 0#5, ph := ph }.latch (encode i)

/-- The block where the sequencer's next micro-operation is the given one; a command is no micro-operation. -/
def Block.atMicroOp (b : Block) : Instr → Block
  | .setaddr sa .write => { b with tk := .receive, tsa := sa }.inTransaction 0#3
  | .setaddr sa .read => { b with tk := .receive, tsa := sa }.inTransaction 4#3
  | .put x => { b with tk := .receive, tra := x }.inTransaction 1#3
  | .ctrlBurstStart => { b with tk := .send }.inTransaction 2#3
  | .ctrlBurstFinish => { b with tk := .send }.inTransaction 5#3
  | .ctrlSingle => { b with tk := .receive }.inTransaction 5#3
  | .poll => { b with tk := .receive }.inTransaction 3#3
  | .get => { b with tk := .receive }.inTransaction 7#3
  | .recvb _ _ => b
  | .sendb _ _ _ => b
  | .dec _ _ => b
  | .enc _ => b
  | .rdreg _ => b
  | .wrreg _ => b
  | .rdpair _ => b
  | .rdarr _ _ => b
  | .wrarr _ _ _ => b
  | .rdbank _ => b
  | .wrbank _ => b

/-- The state in which the sequencer takes the next step and its micro-operation is the one the word encodes. -/
def State.withMicroOp (s : State) (u : MicroWord) : State :=
  match decodeMicroOp u with
  | .ok i => { s with turns := .sequencer :: s.turns, block := s.block.atMicroOp i }
  | .error _ => s

end Sys2Proof.Machine
end

