-- ==== Sys2Proof/Machine/Step.lean ====
section
/-! DEFINITION. The step of the machine, and where an instruction's word goes for `step` to run it next. -/

namespace Sys2Proof.Machine

/-- One step: one move of the host or one step of the sequencer (70_reset_and_hazards.md R247). -/
def step (s : State) : Host.Outcome State Fault Refusal :=
  nextStep s

/-- The state with a word of spec/opcode_table.json where the next step takes its instruction from: a command word (more
than 16 bits) as the host's next write to `CMD`, a micro-operation word (at most 16 bits) as the sequencer's position.
-/
def State.withFetchWord (s : State) (nbits w : Nat) : State :=
  if nbits ≤ 16 then s.withMicroOp (BitVec.ofNat 11 w) else s.withCommand (BitVec.ofNat 32 w)

end Sys2Proof.Machine
end

