-- ==== Sys2Proof/Machine/Listing.lean ====
section
/-! DEFINITION. The notation of program listings (30_encoding.md R97 to R99): mnemonics, names that stand for addresses,
the host moves of a listing, and the source's call names with their expansions. Notation only: no state or behaviour
depends on it (D39; log entry 15). -/

namespace Sys2Proof.Machine

/-- R97: the mnemonic of an instruction, as spec/opcode_table.json spells it. -/
def mnemonic : Instr → String
  | .recvb _ _ => "RECVB"
  | .sendb _ _ _ => "SENDB"
  | .dec _ _ => "DEC"
  | .enc _ => "ENC"
  | .rdreg _ => "RDREG"
  | .wrreg _ => "WRREG"
  | .rdpair _ => "RDPAIR"
  | .rdarr _ _ => "RDARR"
  | .wrarr _ _ _ => "WRARR"
  | .rdbank _ => "RDBANK"
  | .wrbank _ => "WRBANK"
  | .setaddr _ _ => "SETADDR"
  | .put _ => "PUT"
  | .ctrlBurstStart => "CTRL.BURST_START"
  | .ctrlBurstFinish => "CTRL.BURST_FINISH"
  | .ctrlSingle => "CTRL.SINGLE"
  | .poll => "POLL"
  | .get => "GET"

/-- R97: the operands of a command, in the order of the table of R84; of a micro-operation, as R112 to R118 write them.
-/
def operands : Instr → List Nat
  | .recvb sa ra => [sa.toNat, ra.toNat]
  | .sendb sa ra d => [sa.toNat, ra.toNat, d.toNat]
  | .dec ra d => [ra.toNat, d.toNat]
  | .enc ra => [ra.toNat]
  | .rdreg ra => [ra.toNat]
  | .wrreg ra => [ra.toNat]
  | .rdpair ra => [ra.toNat]
  | .rdarr ra idx => [ra.toNat, idx.toNat]
  | .wrarr ra idx d => [ra.toNat, idx.toNat, d.toNat]
  | .rdbank ra => [ra.toNat]
  | .wrbank ra => [ra.toNat]
  | .setaddr sa dir => [sa.toNat, dir.bit.toNat]
  | .put b => [b.toNat]
  | .ctrlBurstStart => []
  | .ctrlBurstFinish => []
  | .ctrlSingle => []
  | .poll => []
  | .get => []

/-- R97: the address a name stands for: a register's address, a pair's `addrH` or an array's `base`. R10 makes only the
keys unique, so one name can stand in several entries: the model takes `REGTAB` before `PAIRTAB` before `ARRTAB`, and in
a table the first entry of that name (DESIGN CHOICE, log entry 17, safe). -/
def addressOf (c : Config) (name : String) : Option Byte :=
  ((c.regtab.find? fun e => e.name == name).map (·.addr)).or
    (((c.pairtab.find? fun e => e.name == name).map (·.addrH)).or
      ((c.arrtab.find? fun e => e.name == name).map (·.base)))

/-! ### Host moves of a listing (R98) -/

/-- A command written to `CMD`. -/
def command (w : Word) : HostMove := .write 0 w

/-- `WRV i, v`. -/
def wrv (i : Nat) (v : Byte) : HostMove := .write (8 + i) (v.zeroExtend 32)

/-- `RDV i`. -/
def rdv (i : Nat) : HostMove := .read (8 + i)

/-- `WRBUF i, v`. -/
def wrbuf (i : Nat) (v : Byte) : HostMove := .write (32 + i) (v.zeroExtend 32)

/-- `RDBUF i`. -/
def rdbuf (i : Nat) : HostMove := .read (32 + i)

/-- `RDST`. -/
def rdst : HostMove := .read 1

/-- `RDRD`. -/
def rdrd : HostMove := .read 2

/-- `RDRW`. -/
def rdrw : HostMove := .read 3

/-- `WAIT` reads `STATUS` until `DONE` is 1. As an order of turns: one sequencer step and one read of `STATUS`, `k`
times; the wait is over if `k` is enough for the command to end. -/
def waitTurns : Nat → List Turn
  | 0 => []
  | k + 1 => .sequencer :: .host rdst :: waitTurns k

/-! ### The source's call names (R99), each as the host moves before and with its command -/

/-- The moves that write the view, `V[0]` first. -/
def writeView (i : Nat) : List Byte → List HostMove
  | [] => []
  | v :: vs => wrv i v :: writeView (i + 1) vs

/-- `ReceiveByte(sa, ra)`; the result is in `RD`. -/
def receiveByte (sa : SlaveAddr) (ra : Byte) : List HostMove := [command (formatT 0x1 sa ra 0)]

/-- `WriteByte(sa, ra, d)`. -/
def writeByte (sa : SlaveAddr) (ra d : Byte) : List HostMove := [command (formatT 0x2 sa ra d)]

/-- `Decode(rawByte)` for the register at `ra`; the result is in `V`. -/
def decodeCall (ra raw : Byte) : List HostMove := [command (formatR 0x3 0 ra raw)]

/-- `Encode(View)` for the register at `ra`; the result is in `RD`. -/
def encodeCall (ra : Byte) (view : List Byte) : List HostMove := writeView 0 view ++ [command (formatR 0x4 0 ra 0)]

/-- `X.Read()`, `ReadRegister(view*)` of a single-byte register; the result is in `V`, the raw byte in `RD`. -/
def readRegister (ra : Byte) : List HostMove := [command (formatR 0x5 0 ra 0)]

/-- `X.Write()`, `WriteRegister(view*)`. -/
def writeRegister (ra : Byte) (view : List Byte) : List HostMove := writeView 0 view ++ [command (formatR 0x6 0 ra 0)]

/-- `WhoAmI.Read()`. -/
def whoAmIRead : List HostMove := readRegister 0x75#8

/-- `Read()` of a two-byte measurement register; the result is in `RW`. -/
def readPair (addrH : Byte) : List HostMove := [command (formatR 0x7 0 addrH 0)]

/-- `ExternalSensorData.Read(index)` and its like; the result is in `RD`, or `ERR` is 1. -/
def readElement (base idx : Byte) : List HostMove := [command (formatR 0x8 idx base 0)]

/-- `ReadRegister` over the whole range of an array; the data is in `BUF`. -/
def readArray (base : Byte) : List HostMove := [command (formatR 0xA 0 base 0)]

/-- `WriteRegister` over the whole range of an array; the data is in `BUF`. -/
def writeArray (base : Byte) : List HostMove := [command (formatR 0xB 0 base 0)]

/-- Read-modify-write of field `i` of a register: `RDREG X; WRV i, v; WRREG X` (R74, R174). -/
def modifyField (ra : Byte) (i : Nat) (v : Byte) : List HostMove :=
  readRegister ra ++ [wrv i v, command (formatR 0x6 0 ra 0)]

end Sys2Proof.Machine
end

