-- ==== Sys2Proof/Safety.lean ====
section
/-! DEFINITION. What counts as a safe state and a safe run, in the terms the claims use: the invariant of the machine,
the work a running command has left, the shapes of the two transactions in the trace (41_transactions.md R135, R138),
and the premises `BC_LIVE` and `BC_BUSY_VALID` (40_bus_port.md R120). -/

namespace Sys2Proof.Machine

/-! ### Runs -/

/-- `n` steps, stopping at the first fault or refusal. -/
def run : Nat → State → Result
  | 0, s => .next s
  | n + 1, s =>
    match step s with
    | .next t => run n t
    | .fault f => .fault f
    | .refused r => .refused r

/-! ### The invariant -/

/-- R30 and R27: `BUSY` and `DONE` are never both 1, `ERR` is nonzero only when `DONE` is 1 and `BUSY` is 0, and
`(EC, PH)` is `(0, 0)` while `BUSY` is 0. -/
def Block.flagsOk (b : Block) : Bool :=
  !(b.busy && b.done) && (b.err == .none || (b.done && !b.busy)) && (b.busy || (b.ec == 0#5 && b.ph == 0#3))

/-- The latches hold this transaction (R131, R32). -/
def Block.holds (b : Block) : Transaction → Bool
  | .receive sa ra => b.tk == .receive && b.tsa == sa && b.tra == ra
  | .send sa ra d => b.tk == .send && b.tsa == sa && b.tra == ra && b.twd == d

/-- While `BUSY` is 1: `CW` holds a command that uses the bus, the latches hold its transaction number `EC` (R131, R182),
and a send is in one of its seven phases (R28: "a send transaction never reaches 7"). -/
def Block.runningOk (c : Config) (b : Block) : Bool :=
  match decodeCommand b.cw with
  | .error _ => false
  | .ok i =>
    match (transactionsOf c b i)[b.ec.toNat]? with
    | none => false
    | some t => b.holds t && !(b.tk == .send && b.ph == 7#3)

/-- In the reference environment, while `BUSY` is 1: the bus controller holds the address, direction and bytes that the
phases so far have given it (R112 to R114, R121). -/
def Env.inStep (e : Env) (b : Block) : Bool :=
  (b.ph == 0#3 || (e.msaAddr == b.tsa &&
      e.msaDir == (if b.tk == .receive && decide (5 ≤ b.ph.toNat) then .read else .write))) &&
    (!(b.ph == 2#3) || e.mdr == b.tra) &&
    (!(b.tk == .send && b.ph == 5#3) || e.mdr == b.twd) &&
    (!(b.tk == .send && decide (3 ≤ b.ph.toNat ∧ b.ph.toNat ≤ 5)) || e.opn == some ⟨b.tsa, [b.tra]⟩)

/-- The invariant of the machine. It rules out the states that no run reaches: ill-formed parameters (R10), flags that
contradict R30, a running command that `CW` and the latches disagree about, a reference controller out of step with the
phase, and a device memory that is not in canonical form. -/
def stateInv (s : State) : Bool :=
  s.cfg.wf && s.block.flagsOk && (!s.block.busy || s.block.runningOk s.cfg) &&
    (!(s.block.busy && s.env.mode == .reference) || s.env.inStep s.block) && s.env.slv.wf

/-! ### Which commands are refused (R200, R204, R208) -/

/-- R208, after `ILLEGAL_COMMAND`: why a command is refused, first `UNKNOWN_REGISTER`, then `INVALID_INDEX`; `none` if it
is accepted. `RECVB` and `SENDB` are never refused, and a micro-operation is no command. -/
def refusalOf (c : Config) : Instr → Option ErrCode
  | .recvb _ _ => none
  | .sendb _ _ _ => none
  | .dec ra _ => if (fieldsOf c ra).isNone then some .unknownRegister else none
  | .enc ra => if (fieldsOf c ra).isNone then some .unknownRegister else none
  | .rdreg ra => if (fieldsOf c ra).isNone then some .unknownRegister else none
  | .wrreg ra => if (fieldsOf c ra).isNone then some .unknownRegister else none
  | .rdpair ra => if (pairOf c ra).isNone then some .unknownRegister else none
  | .rdarr ra idx =>
    match arrayOf c ra with
    | none => some .unknownRegister
    | some e => if e.count ≤ idx.toNat then some .invalidIndex else none
  | .wrarr ra idx _ =>
    match arrayOf c ra with
    | none => some .unknownRegister
    | some e => if e.count ≤ idx.toNat then some .invalidIndex else none
  | .rdbank ra => if (arrayOf c ra).isNone then some .unknownRegister else none
  | .wrbank ra => if (arrayOf c ra).isNone then some .unknownRegister else none
  | .setaddr _ _ => none
  | .put _ => none
  | .ctrlBurstStart => none
  | .ctrlBurstFinish => none
  | .ctrlSingle => none
  | .poll => none
  | .get => none

/-- `DEC` and `ENC`, the commands carried out whole in their accept step (R81 (4)). -/
def carriedOutAtOnce : Instr → Bool
  | .dec _ _ => true
  | .enc _ => true
  | _ => false

/-! ### Work left, and the premise that a command ends -/

/-- The phases of one transaction: eight of a receive (R133), seven of a send (R136). -/
def phasesOf : Kind → Nat
  | .receive => 8
  | .send => 7

/-- How many phases the running command still has before it ends. -/
def Block.work (c : Config) (b : Block) : Nat :=
  if b.busy then
    match decodeCommand b.cw with
    | .error _ => 0
    | .ok i => ((transactionsOf c b i).length - b.ec.toNat) * phasesOf b.tk - b.ph.toNat
  else 0

/-- The sequencer is about to poll (phases 3 and 6) and the environment answers busy: the one step that does no work. -/
def State.pollsBusy (s : State) : Bool :=
  (s.block.ph == 3#3 || s.block.ph == 6#3) && s.env.busyAnswer

/-- The environment after `n` `POLL`s in a row. -/
def Env.afterPolls : Nat → Env → Env
  | 0, e => e
  | n + 1, e => Env.afterPolls n e.afterPoll

/-- Only finitely many of the coming `POLL`s are answered 1 before one is answered 0, which is where the block stops
polling (R132). -/
def Env.waitEnds (e : Env) : Prop :=
  ∃ n, (e.afterPolls n).busyAnswer = false

/-- R120, the premise `BC_LIVE`, of the run from a state: "after every `CTRL`, only finitely many `POLL` answers are 1".
The `POLL`s after a `CTRL` are those of the busy-wait in phase 3 or 6. -/
def State.BcLive (s : State) : Prop :=
  ∀ n t, run n s = .next t → t.block.busy = true → t.block.ph = 3#3 ∨ t.block.ph = 6#3 → t.env.waitEnds

/-- R120, the premise `BC_BUSY_VALID`, of the run from a state: "the first `POLL` after a `CTRL` already reflects that
`CTRL`, that is, the busy flag cannot read 0 because the controller has not yet begun". `atWork` says of an environment
whether its bus controller still has to carry out the last `CTRL` (R117), which the block cannot see (R119) and so is
given with the environment. D28 has the premise for an answer 0 to any `POLL` after a `CTRL`, R120 for the first `POLL`;
this is R120's, so a later `POLL` may answer 0 with work left (DESIGN CHOICE, log entry 15, safe). -/
def State.BcBusyValid (atWork : Env → Bool) (s : State) : Prop :=
  ∀ n t c e, run n s = .next t → t.block.busy = true → currentOp t.cfg t.block = some (ctrlInstr c) →
    t.env.ctrl c = some e → atWork e = true → e.busyAnswer = true

/-- R117, R121: the reference controller still has to carry out the last `CTRL` while `BUSYN` is not 0. -/
def Env.referenceAtWork (e : Env) : Bool :=
  decide (0 < e.busyn)

/-- A condition on a state alone under which the running command ends, without being `BC_LIVE` of the whole run: the
environment is the reference one, or the coming answers hold a 0 for each of the at most 48 busy-waits of the longest
command (24 transactions; DESIGN CHOICE, log entry 15, safe). -/
def State.answersSuffice (s : State) : Bool :=
  s.env.mode == .reference || decide (48 ≤ s.env.draws.busy.count false)

/-! ### The transactions in the trace (R135, R138), with the words of R95 -/

/-- R93, R95: the word of `SETADDR`. -/
def setaddrWord (sa : SlaveAddr) (dir : Dir) : MicroWord :=
  (sa.zeroExtend 11 <<< 1) ||| dir.bit.zeroExtend 11

/-- R95: `PUT(b)` is `0x100 | b`. -/
def putWord (b : Byte) : MicroWord := 0x100#11 ||| b.zeroExtend 11

/-- R94: the word of `CTRL(c)`. -/
def ctrlWord : Ctrl → MicroWord
  | .burstStart => 0x203#11
  | .burstFinish => 0x205#11
  | .single => 0x207#11

/-- R132, R117: a busy-wait that is answered busy `a` times. -/
def waitTrace (a : Nat) : List TraceEntry :=
  List.replicate a ⟨0x300#11, .busy true⟩ ++ [⟨0x300#11, .busy false⟩]

/-- R135: a whole receive transaction whose waits are answered busy `a` and `b` times and whose byte is `x`. -/
def receiveTrace (c : Ctrl) (sa : SlaveAddr) (ra : Byte) (a b : Nat) (x : Byte) : List TraceEntry :=
  [⟨setaddrWord sa .write, .nothing⟩, ⟨putWord ra, .nothing⟩, ⟨ctrlWord c, .nothing⟩] ++ waitTrace a ++
    [⟨setaddrWord sa .read, .nothing⟩, ⟨ctrlWord .single, .nothing⟩] ++ waitTrace b ++ [⟨0x400#11, .data x⟩]

/-- R138: a whole send transaction whose waits are answered busy `a` and `b` times. -/
def sendTrace (sa : SlaveAddr) (ra d : Byte) (a b : Nat) : List TraceEntry :=
  [⟨setaddrWord sa .write, .nothing⟩, ⟨putWord ra, .nothing⟩, ⟨ctrlWord .burstStart, .nothing⟩] ++ waitTrace a ++
    [⟨putWord d, .nothing⟩, ⟨ctrlWord .burstFinish, .nothing⟩] ++ waitTrace b

/-- The busy bits of a busy-wait that is answered busy `a` times. -/
def waitBits (a : Nat) : List Bool :=
  List.replicate a true ++ [false]

/-- What the environment answers in one transaction: busy `before` times in the first wait, busy `after` times in the
second, and for a receive the byte. -/
structure Exchange where
  before : Nat
  after : Nat
  byte : Byte
deriving DecidableEq, Repr

/-- The busy bits of a list of transactions. -/
def exchangeBits (l : List Exchange) : List Bool :=
  l.flatMap fun x => waitBits x.before ++ waitBits x.after

/-- How many sequencer steps a list of transactions takes, `phases` each and one more for every busy answer. -/
def exchangeSteps (phases : Nat) (l : List Exchange) : Nat :=
  (l.map fun x => phases + x.before + x.after).sum

/-- The trace of a bank read from register address `base + k` on (R179). -/
def bankReadTrace (c : Ctrl) (sa : SlaveAddr) (base : Byte) (k : Nat) : List Exchange → List TraceEntry
  | [] => []
  | x :: xs => receiveTrace c sa (elementAddr base k) x.before x.after x.byte ++ bankReadTrace c sa base (k + 1) xs

/-- The trace of a bank write of entries `BUF[k]` on (R180); a send has no byte of the environment's. -/
def bankWriteTrace (sa : SlaveAddr) (base : Byte) (b : Block) (k : Nat) : List Exchange → List TraceEntry
  | [] => []
  | x :: xs =>
    sendTrace sa (elementAddr base k) (b.bufAt k) x.before x.after ++ bankWriteTrace sa base b (k + 1) xs

/-! ### The wire (R124) -/

/-- R124: a send transaction that the slave acknowledges. -/
def wireSend (sa : SlaveAddr) (ra d : Byte) : List WireSym :=
  [.start, .addr sa .write, .ack, .data ra, .ack, .data d, .ack, .stop]

/-- R124: a receive transaction that the slave acknowledges, by the value of `RECV_WRITE_CTRL`. -/
def wireReceive (c : Ctrl) (sa : SlaveAddr) (ra x : Byte) : List WireSym :=
  match c with
  | .burstStart =>
    [.start, .addr sa .write, .ack, .data ra, .ack, .repStart, .addr sa .read, .ack, .data x, .nack, .stop]
  | _ =>
    [.start, .addr sa .write, .ack, .data ra, .ack, .stop, .start, .addr sa .read, .ack, .data x, .nack, .stop]

end Sys2Proof.Machine
end

