-- ==== Sys2Proof/Certificates/Slice0/Obligations.lean ====
section
/-! DEFINITION. The statements for the provers. Each formalises what the rules it cites say, for every state and every
operand that meets its hypotheses. Parameters are those of the state (`s.cfg`), so each holds for every parameter set;
the environment is that of the state, so each holds for every sequence of answers unless it names one. -/

open Sys2Proof Sys2Proof.Machine

/-! ### Encoding -/

/-- R85, R92 to R95: decoding the encoding of any instruction gives it back, with every operand at every value. -/
def Obligations.DecodeOfEncode : Prop :=
  ∀ i : Instr, decode (encode i) = .ok i

/-- R90: a word that decodes to an instruction is that instruction's encoding, so no two words mean the same. -/
def Obligations.EncodeOfDecode : Prop :=
  ∀ (x : Encoded) (i : Instr), decode x = .ok i → encode i = x

/-- R85: a word is the command of a row exactly when `(w & mask) == match`; the eleven patterns are disjoint; a word that
matches none is an illegal command. The operands are the slices of R82, R83. -/
def Obligations.CommandPatterns : Prop :=
  ∀ w : Word,
    let sa : SlaveAddr := w.extractLsb' 16 7
    let idx : Byte := w.extractLsb' 16 8
    let ra : Byte := w.extractLsb' 8 8
    let d : Byte := w.extractLsb' 0 8
    let rows : List (Word × Word × Instr) := [
      (0xFF8000FF#32, 0x10000000#32, .recvb sa ra),
      (0xFF800000#32, 0x20000000#32, .sendb sa ra d),
      (0xFFFF0000#32, 0x30000000#32, .dec ra d),
      (0xFFFF00FF#32, 0x40000000#32, .enc ra),
      (0xFFFF00FF#32, 0x50000000#32, .rdreg ra),
      (0xFFFF00FF#32, 0x60000000#32, .wrreg ra),
      (0xFFFF00FF#32, 0x70000000#32, .rdpair ra),
      (0xFF0000FF#32, 0x80000000#32, .rdarr ra idx),
      (0xFF000000#32, 0x90000000#32, .wrarr ra idx d),
      (0xFFFF00FF#32, 0xA0000000#32, .rdbank ra),
      (0xFFFF00FF#32, 0xB0000000#32, .wrbank ra)]
    (∀ r ∈ rows, decodeCommand w = .ok r.2.2 ↔ w &&& r.1 = r.2.1) ∧
      (∀ r ∈ rows, ∀ q ∈ rows, w &&& r.1 = r.2.1 → w &&& q.1 = q.2.1 → r.2.1 = q.2.1) ∧
      ((∃ e, decodeCommand w = .error e) ↔ ∀ r ∈ rows, w &&& r.1 ≠ r.2.1)

/-- R93 to R95: the words of the micro-operations (`PUT(b)` is `0x100 | b`, `POLL` 0x300, `GET` 0x400, `SETADDR` with
payload `{sa, dir}`, 0 for write and 1 for read, `CTRL` with the flags `RUN` bit 0, `START` bit 1, `STOP` bit 2), and the
patterns for a decoder of traces. -/
def Obligations.MicroOpPatterns : Prop :=
  (∀ b : Byte, encode (.put b) = .microOp (0x100#11 ||| b.zeroExtend 11)) ∧
    encode .poll = .microOp 0x300#11 ∧ encode .get = .microOp 0x400#11 ∧
    (∀ (sa : SlaveAddr) (dir : Dir), ∃ u, encode (.setaddr sa dir) = .microOp u ∧ u.extractLsb' 8 3 = 0#3 ∧
      u.extractLsb' 1 7 = sa ∧ (u.getLsbD 0 = true ↔ dir = .read)) ∧
    (∀ c : Ctrl, encode (ctrlInstr c) = .microOp (2#3 ++ c.code) ∧ c.run = true ∧ (c.start = true ↔ c ≠ .burstFinish) ∧
      (c.stop = true ↔ c ≠ .burstStart) ∧ c.code.extractLsb' 3 5 = 0#5) ∧
    ∀ u : MicroWord,
      (u &&& 0x700#11 = 0x000#11 ↔ ∃ sa dir, decodeMicroOp u = .ok (.setaddr sa dir)) ∧
      (u &&& 0x700#11 = 0x100#11 ↔ ∃ b, decodeMicroOp u = .ok (.put b)) ∧
      (u &&& 0x7FF#11 = 0x203#11 ↔ decodeMicroOp u = .ok .ctrlBurstStart) ∧
      (u &&& 0x7FF#11 = 0x205#11 ↔ decodeMicroOp u = .ok .ctrlBurstFinish) ∧
      (u &&& 0x7FF#11 = 0x207#11 ↔ decodeMicroOp u = .ok .ctrlSingle) ∧
      (u &&& 0x7FF#11 = 0x300#11 ↔ decodeMicroOp u = .ok .poll) ∧
      (u &&& 0x7FF#11 = 0x400#11 ↔ decodeMicroOp u = .ok .get)

/-- Words written out from R82 to R95 decode to the instructions they stand for, one per family (the words of R134,
R137, R153, R154, R171, R173, R175, R177, R178, R179, R180 and of R112 to R118). -/
def Obligations.SampleWordsDecode : Prop :=
  decodeTableWord 32 0x10687500 = some (.recvb 0x68 0x75) ∧ decodeTableWord 32 0x20686B00 = some (.sendb 0x68 0x6B 0x00) ∧
    decodeTableWord 32 0x30001C90 = some (.dec 0x1C 0x90) ∧ decodeTableWord 32 0x40002700 = some (.enc 0x27) ∧
    decodeTableWord 32 0x50007500 = some (.rdreg 0x75) ∧ decodeTableWord 32 0x60001C00 = some (.wrreg 0x1C) ∧
    decodeTableWord 32 0x70003B00 = some (.rdpair 0x3B) ∧ decodeTableWord 32 0x80054900 = some (.rdarr 0x49 5) ∧
    decodeTableWord 32 0x900231A5 = some (.wrarr 0x31 2 0xA5) ∧ decodeTableWord 32 0xA0004900 = some (.rdbank 0x49) ∧
    decodeTableWord 32 0xB0003100 = some (.wrbank 0x31) ∧ decodeTableWord 16 0x0D1 = some (.setaddr 0x68 .read) ∧
    decodeTableWord 16 0x175 = some (.put 0x75) ∧ decodeTableWord 16 0x203 = some .ctrlBurstStart ∧
    decodeTableWord 16 0x205 = some .ctrlBurstFinish ∧ decodeTableWord 16 0x207 = some .ctrlSingle ∧
    decodeTableWord 16 0x300 = some .poll ∧ decodeTableWord 16 0x400 = some .get

/-! ### The codec -/

/-- R150, R151, by bits. Bit `k` of a decoded field is bit `offset + k` of the raw byte for `k` below the field's width,
and 0 above. Bit `k` of an encoded byte is bit `k - offset` of the value of the field that covers `k`, and 0 where none
does; no bit comes from outside a field's width. -/
def Obligations.CodecBits : Prop :=
  (∀ (fs : List Field) (b : Byte) (i : Nat) (f : Field), fieldsWf fs = true → fs[i]? = some f →
    ∃ x, (decodeFields fs b)[i]? = some x ∧
      ∀ k, x.getLsbD k = (decide (k < f.width) && b.getLsbD (f.offset + k))) ∧
  ∀ (fs : List Field) (v : List Byte) (k : Nat), fieldsWf fs = true → v.length = fs.length →
    ((encodeFields fs v).getLsbD k = true ↔
      ∃ (i : Nat) (f : Field) (x : Byte), fs[i]? = some f ∧ v[i]? = some x ∧ f.offset ≤ k ∧ k < f.offset + f.width ∧
        x.getLsbD (k - f.offset) = true)

/-- R152: the masks of widths 1 to 8; a field of width 8 passes the byte through unchanged both ways; bit `k` of the
covered mask is 1 exactly when some field covers bit `k`, so its complement is the reserved bits. -/
def Obligations.FieldMasks : Prop :=
  ((List.range 8).map fun k => fieldMask ⟨"", 0, k + 1⟩) = [1, 3, 7, 15, 31, 63, 127, 255] ∧
    (∀ (n : String) (b : Byte), decodeFields [⟨n, 0, 8⟩] b = [b] ∧ encodeFields [⟨n, 0, 8⟩] [b] = b) ∧
    ∀ (fs : List Field) (k : Nat), fieldsWf fs = true →
      ((coveredMask fs).getLsbD k = true ↔ ∃ f ∈ fs, f.offset ≤ k ∧ k < f.offset + f.width)

/-- R156: `encode(a, decode(a, b)) = b & cov(a)`, which is `b` when the fields cover all 8 bits; doing it twice gives the
same as once. -/
def Obligations.ByteRoundTrip : Prop :=
  ∀ (fs : List Field) (b : Byte), fieldsWf fs = true →
    encodeFields fs (decodeFields fs b) = b &&& coveredMask fs ∧
      (coveredMask fs = 0xFF#8 → encodeFields fs (decodeFields fs b) = b) ∧
      encodeFields fs (decodeFields fs (encodeFields fs (decodeFields fs b))) = encodeFields fs (decodeFields fs b)

/-- R157: `decode(a, encode(a, v))[i] = v_i & ((1 << w_i) - 1)`, which is `v_i` when it fits its width. -/
def Obligations.FieldRoundTrip : Prop :=
  ∀ (fs : List Field) (v : List Byte) (i : Nat) (f : Field) (x : Byte), fieldsWf fs = true → v.length = fs.length →
    fs[i]? = some f → v[i]? = some x →
    (decodeFields fs (encodeFields fs v))[i]? = some (BitVec.ofNat 8 (x.toNat &&& ((1 <<< f.width) - 1))) ∧
      (x.toNat < 2 ^ f.width → (decodeFields fs (encodeFields fs v))[i]? = some x)

/-- R158: the result of encode does not depend on the order in which the fields are accumulated, and reserved bits are
written as zero. -/
def Obligations.EncodeOrderIndependent : Prop :=
  (∀ l l' : List (Field × Byte), l.Perm l' →
      encodeFields (l.map (·.1)) (l.map (·.2)) = encodeFields (l'.map (·.1)) (l'.map (·.2))) ∧
    ∀ (fs : List Field) (v : List Byte), fieldsWf fs = true → encodeFields fs v &&& ~~~ coveredMask fs = 0#8

/-! ### Commands: the accept step -/

/-- R134, R137, R81: `RECVB` and `SENDB` are accepted in every state with any operands, and this is the whole state after
the accept step. -/
def Obligations.TransactionCommandsAccept : Prop :=
  (∀ (sa : SlaveAddr) (ra : Byte) (s : State), exec (.recvb sa ra) s = .next { s with
      block := { s.block with
        cw := formatT 0x1 sa ra 0, busy := true, done := false, err := .none, ec := 0, ph := 0, tk := .receive, tsa := sa,
        tra := ra } }) ∧
    ∀ (sa : SlaveAddr) (ra d : Byte) (s : State), exec (.sendb sa ra d) s = .next { s with
      block := { s.block with
        cw := formatT 0x2 sa ra d, busy := true, done := false, err := .none, ec := 0, ph := 0, tk := .send, tsa := sa,
        tra := ra, twd := d } }

/-- R153: `DEC` of a known register completes in the accept step: `V[i]` is field `i` of the byte, `V[n..7]` unchanged,
`DONE` 1, `ERR` 0, `CW` the word, nothing else. -/
def Obligations.DecCompletes : Prop :=
  ∀ (ra d : Byte) (s : State) (fs : List Field), fieldsOf s.cfg ra = some fs →
    ∃ v : Vector Byte 8,
      exec (.dec ra d) s = .next { s with
        block := { s.block with cw := formatR 0x3 0 ra d, v := v, done := true, err := .none } } ∧
      (∀ i f, fs[i]? = some f → i < 8 →
        v[i]? = some (BitVec.ofNat 8 ((d.toNat >>> f.offset) &&& ((1 <<< f.width) - 1)))) ∧
      ∀ i : Nat, fs.length ≤ i → v[i]? = s.block.v[i]?

/-- R154: `ENC` of a known register completes in the accept step: `RD` is the encoding of `V[0..n-1]`, `DONE` 1, `ERR` 0,
`CW` the word, nothing else. -/
def Obligations.EncCompletes : Prop :=
  ∀ (ra : Byte) (s : State) (fs : List Field), fieldsOf s.cfg ra = some fs →
    exec (.enc ra) s = .next { s with
      block := { s.block with
        cw := formatR 0x4 0 ra 0, rd := encodeFields fs (s.block.v.toList.take fs.length), done := true, err := .none } }

/-- R171, R173, R81: `RDREG` and `WRREG` of a known register are accepted; a `WRREG` has the encoding of `V[0..n-1]` in
`TWD`. -/
def Obligations.RegisterCommandsAccept : Prop :=
  ∀ (ra : Byte) (s : State) (fs : List Field), fieldsOf s.cfg ra = some fs →
    exec (.rdreg ra) s = .next { s with
      block := { s.block with
        cw := formatR 0x5 0 ra 0, busy := true, done := false, err := .none, ec := 0, ph := 0, tk := .receive,
        tsa := s.cfg.slaveAddr, tra := ra } } ∧
    exec (.wrreg ra) s = .next { s with
      block := { s.block with
        cw := formatR 0x6 0 ra 0, busy := true, done := false, err := .none, ec := 0, ph := 0, tk := .send,
        tsa := s.cfg.slaveAddr, tra := ra, twd := encodeFields fs (s.block.v.toList.take fs.length) } }

/-- R177, R178, R181, R86: `RDARR` and `WRARR` with an index below `count` are accepted with register address
`ra + idx`, which never wraps with well-formed parameters. -/
def Obligations.ArrayCommandsAccept : Prop :=
  ∀ (ra idx d : Byte) (s : State) (e : ArrEntry), s.cfg.wf = true → arrayOf s.cfg ra = some e → idx.toNat < e.count →
    ∃ a : Byte, a.toNat = ra.toNat + idx.toNat ∧
      exec (.rdarr ra idx) s = .next { s with
        block := { s.block with
          cw := formatR 0x8 idx ra 0, busy := true, done := false, err := .none, ec := 0, ph := 0, tk := .receive,
          tsa := s.cfg.slaveAddr, tra := a } } ∧
      exec (.wrarr ra idx d) s = .next { s with
        block := { s.block with
          cw := formatR 0x9 idx ra d, busy := true, done := false, err := .none, ec := 0, ph := 0, tk := .send,
          tsa := s.cfg.slaveAddr, tra := a, twd := d } }

/-- R175, R179, R180, R81: `RDPAIR` of a known pair is accepted with the high-order byte's register as its first
transaction; `RDBANK` and `WRBANK` of a known array with element 0. -/
def Obligations.PairAndBankCommandsAccept : Prop :=
  (∀ (ra : Byte) (s : State) (p : PairEntry), pairOf s.cfg ra = some p →
    exec (.rdpair ra) s = .next { s with
      block := { s.block with
        cw := formatR 0x7 0 ra 0, busy := true, done := false, err := .none, ec := 0, ph := 0, tk := .receive,
        tsa := s.cfg.slaveAddr, tra := p.addrH } }) ∧
  ∀ (ra : Byte) (s : State) (e : ArrEntry), arrayOf s.cfg ra = some e →
    exec (.rdbank ra) s = .next { s with
      block := { s.block with
        cw := formatR 0xA 0 ra 0, busy := true, done := false, err := .none, ec := 0, ph := 0, tk := .receive,
        tsa := s.cfg.slaveAddr, tra := ra } } ∧
    exec (.wrbank ra) s = .next { s with
      block := { s.block with
        cw := formatR 0xB 0 ra 0, busy := true, done := false, err := .none, ec := 0, ph := 0, tk := .send,
        tsa := s.cfg.slaveAddr, tra := ra, twd := s.block.buf[0] } }

/-- R182: the transactions of each command, in order. -/
def Obligations.TransactionsOfCommands : Prop :=
  ∀ (c : Config) (b : Block) (sa : SlaveAddr) (ra idx d : Byte), c.wf = true →
    transactionsOf c b (.recvb sa ra) = [.receive sa ra] ∧ transactionsOf c b (.sendb sa ra d) = [.send sa ra d] ∧
    transactionsOf c b (.dec ra d) = [] ∧ transactionsOf c b (.enc ra) = [] ∧
    transactionsOf c b (.rdreg ra) = [.receive c.slaveAddr ra] ∧
    (∀ fs, fieldsOf c ra = some fs →
      transactionsOf c b (.wrreg ra) = [.send c.slaveAddr ra (encodeFields fs (b.v.toList.take fs.length))]) ∧
    (∀ p, pairOf c ra = some p →
      transactionsOf c b (.rdpair ra) = [.receive c.slaveAddr p.addrH, .receive c.slaveAddr p.addrL]) ∧
    (∀ e, arrayOf c ra = some e → idx.toNat < e.count → ∃ a : Byte, a.toNat = ra.toNat + idx.toNat ∧
      transactionsOf c b (.rdarr ra idx) = [.receive c.slaveAddr a] ∧
      transactionsOf c b (.wrarr ra idx d) = [.send c.slaveAddr a d]) ∧
    ∀ e, arrayOf c ra = some e →
      (transactionsOf c b (.rdbank ra)).length = e.count ∧ (transactionsOf c b (.wrbank ra)).length = e.count ∧
      ∀ k, k < e.count → ∃ a : Byte, a.toNat = ra.toNat + k ∧
        (transactionsOf c b (.rdbank ra))[k]? = some (.receive c.slaveAddr a) ∧
        ∃ x, b.buf[k]? = some x ∧ (transactionsOf c b (.wrbank ra))[k]? = some (.send c.slaveAddr a x)

/-! ### Refusals -/

/-- R207: what refusing a command does: `ERR` the code of the first check that fails (R208), `DONE` 1, `CW` the word, and
nothing else: no register, no flag, no latch, nothing on the port. -/
def Obligations.RefusalEffect : Prop :=
  (∀ (i : Instr) (w : Word) (e : ErrCode) (s : State), encode i = .command w → refusalOf s.cfg i = some e →
      exec i s = .next { s with block := { s.block with cw := w, err := e, done := true } }) ∧
    ∀ (w : Word) (x : Reject) (s : State), decodeCommand w = .error x →
      hostWrite 0 w s = .next { s with block := { s.block with cw := w, err := .illegalCommand, done := true } }

/-- R206, R81: a command that no check refuses is accepted: `ERR` 0, and either it is carried out at once (`DONE` 1,
`BUSY` as it was) or it runs (`BUSY` 1, `DONE` 0, `(EC, PH)` (0, 0)); nothing is emitted either way. -/
def Obligations.AcceptEffect : Prop :=
  ∀ (i : Instr) (w : Word) (s : State), encode i = .command w → refusalOf s.cfg i = none →
    ∃ t, exec i s = .next t ∧ t.block.cw = w ∧ t.block.err = .none ∧ t.trace = s.trace ∧ t.env = s.env ∧
      (carriedOutAtOnce i = true → t.block.done = true ∧ t.block.busy = s.block.busy) ∧
      (carriedOutAtOnce i = false →
        t.block.busy = true ∧ t.block.done = false ∧ t.block.ec = 0#5 ∧ t.block.ph = 0#3)

/-- R203: whether a word is illegal depends on the word alone; whether it is refused otherwise, and why, on the word and
the constant tables `REGTAB`, `PAIRTAB` and `ARRTAB` alone; on no other parameter and nothing else in the state. -/
def Obligations.RefusalIndependentOfState : Prop :=
  ∀ (w : Word) (s s' : State),
    ∃ t t', hostWrite 0 w s = .next t ∧ hostWrite 0 w s' = .next t' ∧
      (t.block.err = .illegalCommand ↔ t'.block.err = .illegalCommand) ∧
      (s.cfg.regtab = s'.cfg.regtab → s.cfg.pairtab = s'.cfg.pairtab → s.cfg.arrtab = s'.cfg.arrtab →
        t.block.err = t'.block.err)

/-! ### Micro-operations -/

/-- R112, R113: `SETADDR` and `PUT` complete in every state: they emit their word, no state of the block changes except
`PH`, and the reference bus controller remembers the payload. -/
def Obligations.SetaddrPutComplete : Prop :=
  (∀ (sa : SlaveAddr) (dir : Dir) (s : State), ∃ e, exec (.setaddr sa dir) s = .next { s with
      block := { s.block with ph := s.block.ph + 1 }, trace := s.trace ++ [⟨0#3 ++ sa ++ dir.bit, .nothing⟩], env := e } ∧
      (s.env.mode = .free → e = s.env) ∧ (s.env.mode = .reference → e = { s.env with msa := sa ++ dir.bit })) ∧
    ∀ (b : Byte) (s : State), ∃ e, exec (.put b) s = .next { s with
      block := { s.block with ph := s.block.ph + 1 }, trace := s.trace ++ [⟨1#3 ++ b, .nothing⟩], env := e } ∧
      (s.env.mode = .free → e = s.env) ∧ (s.env.mode = .reference → e = { s.env with mdr := b })

/-- R114, R121: a `CTRL` emits its word and changes nothing in the block but `PH`. In the free environment it completes in
every state; in the reference environment in write direction (`BURST_FINISH` with a transaction open), and `SINGLE` in
read direction too. Any other combination is one for which "the reference has no step". That such a step stops, with the
fault `noControllerStep`, and that a `BURST_FINISH` with `OPEN` empty is one, are the model's choices (log entry 10). -/
def Obligations.CtrlCompletes : Prop :=
  ∀ (c : Ctrl) (s : State),
    let hasStep : Bool := s.env.mode == .free || (match c with
      | .burstStart => !s.env.msa.getLsbD 0
      | .burstFinish => !s.env.msa.getLsbD 0 && s.env.opn.isSome
      | .single => true)
    (hasStep = true → ∃ e, exec (ctrlInstr c) s = .next { s with
      block := { s.block with ph := s.block.ph + 1 }, trace := s.trace ++ [⟨ctrlWord c, .nothing⟩], env := e } ∧
      (s.env.mode = .free → e = s.env)) ∧
    (hasStep = false → exec (ctrlInstr c) s = .fault .noControllerStep)

/-- R132, R117: `POLL` completes in every state. It emits `POLL` with the answer; an answer 1 changes nothing in the
block; an answer 0 adds 1 to `PH`, or in the last phase of a send ends the transaction. -/
def Obligations.PollCompletes : Prop :=
  ∀ s : State, ∃ t, exec .poll s = .next t ∧ t.trace = s.trace ++ [⟨0x300#11, .busy s.env.busyAnswer⟩] ∧
    (s.env.busyAnswer = true → t.block = s.block) ∧
    (s.env.busyAnswer = false → s.block.tk = .send → s.block.ph = 6#3 → t.block = endTransaction s.cfg s.block) ∧
    (s.env.busyAnswer = false → ¬ (s.block.tk = .send ∧ s.block.ph = 6#3) →
      t.block = { s.block with ph := s.block.ph + 1 })

/-- R118, R133 phase 7: `GET` completes in every state. It emits `GET` with the byte answered, the byte goes to `RD`, and
the transaction ends. -/
def Obligations.GetCompletes : Prop :=
  ∀ s : State, ∃ t, exec .get s = .next t ∧ t.trace = s.trace ++ [⟨0x400#11, .data s.env.byteAnswer⟩] ∧
    t.block = endTransaction s.cfg { s.block with rd := s.env.byteAnswer } ∧ t.block.rd = s.env.byteAnswer

/-- R139, R131: ending transaction `EC` of the running command: with a further transaction its latches are loaded,
`EC` goes up by 1 and `PH` to 0, and the command goes on; without one, `BUSY` 0, `DONE` 1, `(EC, PH)` (0, 0). What the
command collects does not touch the flags, `CW`, `RD` or `TWD`. -/
def Obligations.TransactionEnds : Prop :=
  ∀ (c : Config) (b : Block) (i : Instr), c.wf = true → b.busy = true → decodeCommand b.cw = .ok i →
    let n := b.ec.toNat + 1
    let b' := endTransaction c b
    b'.cw = b.cw ∧ b'.rd = b.rd ∧ b'.err = b.err ∧ b'.ph = 0#3 ∧
      (∀ sa ra, (transactionsOf c b i)[n]? = some (.receive sa ra) →
        b'.busy = true ∧ b'.done = b.done ∧ b'.ec.toNat = n ∧ b'.tk = .receive ∧ b'.tsa = sa ∧ b'.tra = ra ∧
          b'.twd = b.twd) ∧
      (∀ sa ra d, (transactionsOf c b i)[n]? = some (.send sa ra d) →
        b'.busy = true ∧ b'.done = b.done ∧ b'.ec.toNat = n ∧ b'.tk = .send ∧ b'.tsa = sa ∧ b'.tra = ra ∧
          b'.twd = d) ∧
      ((transactionsOf c b i)[n]? = none → b'.busy = false ∧ b'.done = true ∧ b'.ec = 0#5)

/-! ### Frames -/

/-- The frame of the commands. The accept step changes no memory, nothing outside the block, and of the block: `CW` and
the flags; `V[0..n-1]` for `DEC` alone; `RD` for `ENC` alone; `(EC, PH)` and the latches for a command that starts a
transaction, `TWD` only if it is a send. `RW`, `BUF` and `HI` never. (R22 to R25, R32, R131, R207.) -/
def Obligations.CommandFrame : Prop :=
  ∀ (i : Instr) (s t : State), i.isCommand = true → exec i s = .next t →
    (t.cfg = s.cfg ∧ t.turns = s.turns ∧ t.held = s.held ∧ t.reads = s.reads ∧ t.trace = s.trace ∧ t.env = s.env) ∧
    (∀ a : Byte, t.env.slv.read a = s.env.slv.read a) ∧
    (t.block.rw = s.block.rw ∧ t.block.buf = s.block.buf ∧ t.block.hi = s.block.hi) ∧
    ((∀ ra d, i ≠ .dec ra d) → t.block.v = s.block.v) ∧
    (∀ ra d fs, i = .dec ra d → fieldsOf s.cfg ra = some fs →
      ∀ k : Nat, fs.length ≤ k → t.block.v[k]? = s.block.v[k]?) ∧
    ((∀ ra, i ≠ .enc ra) → t.block.rd = s.block.rd) ∧
    (carriedOutAtOnce i = true ∨ refusalOf s.cfg i ≠ none →
      t.block.busy = s.block.busy ∧ t.block.ec = s.block.ec ∧ t.block.ph = s.block.ph ∧ t.block.tk = s.block.tk ∧
        t.block.tsa = s.block.tsa ∧ t.block.tra = s.block.tra) ∧
    (t.block.tk ≠ .send ∨ carriedOutAtOnce i = true ∨ refusalOf s.cfg i ≠ none → t.block.twd = s.block.twd)

/-- The frame of the micro-operations that store nothing: `SETADDR`, `PUT`, `CTRL BURST_START`, `POLL`, `GET`. Outside the
block, the environment and the trace nothing changes, the trace only grows, and every byte of the device memory reads as
before. `SETADDR`, `PUT` and `CTRL BURST_START` change nothing in the block but `PH`; `POLL` and `GET` leave `CW` and
`ERR`, and while the command in `CW` is not one that collects them, `V`, `RW`, `HI` and `BUF`; `POLL` leaves `RD`.
(R112 to R118, R22 to R25, R139.) -/
def Obligations.MicroOpFrame : Prop :=
  ∀ (i : Instr) (s t : State), i.isCommand = false → i ≠ .ctrlBurstFinish → i ≠ .ctrlSingle → exec i s = .next t →
    (t.cfg = s.cfg ∧ t.turns = s.turns ∧ t.held = s.held ∧ t.reads = s.reads ∧ s.trace <+: t.trace) ∧
    (∀ a : Byte, t.env.slv.read a = s.env.slv.read a) ∧
    (i ≠ .poll → i ≠ .get → t.block = { s.block with ph := t.block.ph }) ∧
    (t.block.cw = s.block.cw ∧ t.block.err = s.block.err) ∧
    (i ≠ .get → t.block.rd = s.block.rd) ∧
    ((∀ ra, decodeCommand s.block.cw ≠ .ok (.rdreg ra)) → t.block.v = s.block.v) ∧
    ((∀ ra, decodeCommand s.block.cw ≠ .ok (.rdpair ra)) → t.block.rw = s.block.rw ∧ t.block.hi = s.block.hi) ∧
    ((∀ ra, decodeCommand s.block.cw ≠ .ok (.rdbank ra)) → t.block.buf = s.block.buf)

/-- The frame of the two micro-operations that can store to the device memory, `CTRL BURST_FINISH` and `CTRL SINGLE`:
nothing in the block changes but `PH`; the address stored to is the one `slaveStore` gives for the bytes the controller
sends (the open transaction's with the last `PUT` byte, R121; the open transaction's that a START in read direction ends),
that byte is stored in the reference environment, and every other byte reads as before. -/
def Obligations.StoringMicroOpFrame : Prop :=
  (∀ s t : State, exec .ctrlBurstFinish s = .next t →
    t.block = { s.block with ph := s.block.ph + 1 } ∧
    (t.cfg = s.cfg ∧ t.turns = s.turns ∧ t.held = s.held ∧ t.reads = s.reads ∧ s.trace <+: t.trace) ∧
    (∀ a : Byte, (∀ o x d, s.env.opn = some o → s.env.slaveStore o.sa (o.bytes ++ [s.env.mdr]) = some (x, d) → a ≠ x) →
      t.env.slv.read a = s.env.slv.read a) ∧
    (∀ o x d, s.env.mode = .reference → s.env.opn = some o →
      s.env.slaveStore o.sa (o.bytes ++ [s.env.mdr]) = some (x, d) → t.env.slv.read x = some d)) ∧
  ∀ s t : State, exec .ctrlSingle s = .next t →
    t.block = { s.block with ph := s.block.ph + 1 } ∧
    (t.cfg = s.cfg ∧ t.turns = s.turns ∧ t.held = s.held ∧ t.reads = s.reads ∧ s.trace <+: t.trace) ∧
    (∀ a : Byte, (∀ o x d, s.env.opn = some o → s.env.slaveStore o.sa o.bytes = some (x, d) → a ≠ x) →
      t.env.slv.read a = s.env.slv.read a) ∧
    (s.env.msaDir = .write → ∀ a : Byte, t.env.slv.read a = s.env.slv.read a) ∧
    (∀ o x d, s.env.mode = .reference → s.env.msaDir = .read → s.env.opn = some o →
      s.env.slaveStore o.sa o.bytes = some (x, d) → t.env.slv.read x = some d)

/-! ### The step -/

/-- R39, R81: a host write made while `BUSY` is 0 transfers in that step, whatever its register number and word, at the
state with the move taken from the host. When such a write is of a word to `CMD` that decodes to a command, made while
`BUSY` is 0 or held until then, the step is the meaning of that command. -/
def Obligations.StepRunsCommand : Prop :=
  (∀ (s : State) (n : Nat) (w : Word) (rest : List Turn), s.block.busy = false → s.held = none →
      s.turns = .host (.write n w) :: rest → step s = hostWrite n w { s with turns := rest }) ∧
    ∀ (s : State) (w : Word) (i : Instr), s.block.busy = false → decodeCommand w = .ok i →
      (∀ rest, s.held = none → s.turns = .host (.write 0 w) :: rest → step s = exec i { s with turns := rest }) ∧
      (s.held = some ⟨0, w⟩ → step s = exec i { s with held := none })

/-- R130: while `BUSY` is 1 and it is the sequencer's turn (no host move is left, or the host is held by its own write, or
the turn says so), the step is the meaning of the micro-operation of `(TK, PH)`, at the state with the turn taken. While
`BUSY` is 0 the sequencer has no step: with no write held, its turn changes nothing. A host that waits (R38 (3)) changes
nothing, whatever `BUSY` is. -/
def Obligations.StepRunsMicroOp : Prop :=
  (∀ (s : State) (i : Instr), s.block.busy = true → currentOp s.cfg s.block = some i →
      (s.turns = [] → step s = exec i s) ∧
      (∀ rest, s.turns = .sequencer :: rest → step s = exec i { s with turns := rest }) ∧
      (∀ m rest, s.held ≠ none → s.turns = .host m :: rest → m ≠ .reset → step s = exec i s)) ∧
    ∀ s : State, s.held = none →
      (s.block.busy = false → s.turns = [] → step s = .next s) ∧
      (∀ rest, s.block.busy = false → s.turns = .sequencer :: rest → step s = .next { s with turns := rest }) ∧
      (∀ rest, s.turns = .host .wait :: rest → step s = .next { s with turns := rest })

/-! ### The host port and reset -/

/-- R39: a host write made while `BUSY` is 1 is held: it changes nothing and stays pending. Only the reset input drops it;
otherwise it is still held after any step, and it transfers in the first state in which `BUSY` is 0. -/
def Obligations.HeldWrite : Prop :=
  (∀ (s : State) (n : Nat) (w : Word) (rest : List Turn), s.block.busy = true → s.held = none →
      s.turns = .host (.write n w) :: rest → step s = .next { s with turns := rest, held := some ⟨n, w⟩ }) ∧
    (∀ (s t : State) (h : HostWrite), s.block.busy = true → s.held = some h → step s = .next t →
      t.held = some h ∨ ∃ rest, s.turns = .host .reset :: rest ∧ t = { s with turns := rest }.resetInput) ∧
    ∀ (s : State) (h : HostWrite), s.block.busy = false → s.held = some h →
      step s = hostWrite h.num h.word { s with held := none }

/-- R39, R35: a transferred write to `V[i]` or `BUF[i]` sets that register to `w[7:0]` and changes nothing else. -/
def Obligations.HostWritesRegister : Prop :=
  ∀ (s : State) (w : Word),
    (∀ i : Fin 8, hostWrite (8 + i) w s = .next { s with block := { s.block with v := s.block.v.set i (w.extractLsb' 0 8) } }) ∧
    ∀ i : Fin 24, hostWrite (32 + i) w s = .next { s with
      block := { s.block with buf := s.block.buf.set i (w.extractLsb' 0 8) } }

/-- R41: a transferred write to a read-only register or to an unmapped number changes nothing; a read of an unmapped
number returns 0x00000000. -/
def Obligations.ReadOnlyAndUnmapped : Prop :=
  ∀ (s : State) (n : Nat), let unmapped := (3 < n ∧ n < 8) ∨ (15 < n ∧ n < 32) ∨ 55 < n
    (∀ w, n = 1 ∨ n = 2 ∨ n = 3 ∨ unmapped → hostWrite n w s = .next s) ∧ (unmapped → s.block.readPort n = 0#32)

/-- R35, R40: a host read transfers also while `BUSY` is 1, changes nothing in the block, and returns the register in the
low bits with zeros above; `STATUS` is `BUSY` in bit 0, `DONE` in bit 1, `ERR` in bits [3:2]. -/
def Obligations.HostReads : Prop :=
  (∀ (s : State) (n : Nat) (rest : List Turn), s.held = none → s.turns = .host (.read n) :: rest →
      step s = .next { s with turns := rest, reads := s.reads ++ [⟨n, s.block.readPort n⟩] }) ∧
    ∀ b : Block, b.readPort 0 = b.cw ∧
      (b.readPort 1).toNat = b.busy.toNat + 2 * b.done.toNat + 4 * b.err.code.toNat ∧
      b.readPort 2 = b.rd.zeroExtend 32 ∧ b.readPort 3 = b.rw.zeroExtend 32 ∧
      (∀ i : Fin 8, b.readPort (8 + i) = b.v[i].zeroExtend 32) ∧ ∀ i : Fin 24, b.readPort (32 + i) = b.buf[i].zeroExtend 32

/-- R176: the value of a pair is `RW` read unsigned if its `signed` attribute is "no", and as two's complement if it is
"yes". -/
def Obligations.SignedReading : Prop :=
  ∀ (p : PairEntry) (rw : Half),
    (p.signed = false → pairReading p rw = rw.toNat ∧ 0 ≤ pairReading p rw ∧ pairReading p rw ≤ 65535) ∧
    (p.signed = true → pairReading p rw = rw.toInt ∧ -32768 ≤ pairReading p rw ∧ pairReading p rw ≤ 32767)

/-- R230, R231: the reset input, while a command runs, while a write is held, or with the block idle: `BUSY`, `DONE`, `ERR`,
`(EC, PH)` and `CW` are 0, the data registers and the latches are not touched, a held write is dropped. In the one state in
which a write is held and `BUSY` is already 0, the write transfers first (R39) and the reset is the next step: that order
is the model's choice (log entry 3). That the trace begins anew (log entry 7) and that the environment goes on with what it
held (log entry 16) are the model's choices too. -/
def Obligations.ResetInput : Prop :=
  ∀ (s : State) (rest : List Turn), s.turns = .host .reset :: rest →
    (s.held = none ∨ s.block.busy = true →
      step s = .next { s with
        block := { s.block with cw := 0x00000000#32, busy := false, done := false, err := .none, ec := 0, ph := 0 },
        turns := rest, held := none, trace := [] }) ∧
    ∀ h : HostWrite, s.held = some h → s.block.busy = false →
      ∃ t, hostWrite h.num h.word { s with held := none } = .next t ∧ step s = .next t ∧
        step t = .next { t with
          block := { t.block with cw := 0x00000000#32, busy := false, done := false, err := .none, ec := 0, ph := 0 },
          turns := rest, held := none, trace := [] }

/-- R43, R232: right after reset `BUSY`, `DONE`, `ERR`, `EC`, `PH` and `CW` are 0 and the block stays idle while the host
does nothing. That nothing is listed in the device memory and that the trace is empty are the model's choices (log entries
5 and 7). -/
def Obligations.ResetState : Prop :=
  ∀ c : Config, let s := State.resetWith c
    s.block.busy = false ∧ s.block.done = false ∧ s.block.err = .none ∧ s.block.ec = 0#5 ∧ s.block.ph = 0#3 ∧
      s.block.cw = 0x00000000#32 ∧ s.block.status = 0#32 ∧ s.env.slv = [] ∧ s.trace = [] ∧ step s = .next s

/-- R10: a model given tables that break a condition refuses to build, and one given tables that meet them all is the
machine right after reset. That the legal values of `RECV_WRITE_CTRL` (R9) are checked at the same place is the model's
choice (log entry 8): well-formed tables with `BURST_FINISH` do not build. The default parameters build. -/
def Obligations.BuildChecksTables : Prop :=
  (∀ c : Config, State.build c = .ok (State.resetWith c) ↔
    (∀ e ∈ c.regtab, 1 ≤ e.fields.length ∧ e.fields.length ≤ 8 ∧
      (∀ f ∈ e.fields, 1 ≤ f.width ∧ f.width ≤ 8 ∧ f.offset ≤ 7 ∧ f.offset + f.width ≤ 8) ∧
      e.fields.Pairwise fun f g => ∀ k, ¬ (f.offset ≤ k ∧ k < f.offset + f.width ∧ g.offset ≤ k ∧
        k < g.offset + g.width)) ∧
    (∀ e ∈ c.arrtab, 1 ≤ e.count ∧ e.count ≤ 24 ∧ e.base.toNat + e.count - 1 ≤ 0xFF) ∧
    (∀ e ∈ c.pairtab, e.addrH ≠ e.addrL) ∧
    (c.regtab.Pairwise (fun a b => a.addr ≠ b.addr) ∧ c.pairtab.Pairwise (fun a b => a.addrH ≠ b.addrH) ∧
      c.arrtab.Pairwise fun a b => a.base ≠ b.base) ∧
    c.recvWriteCtrl ≠ .burstFinish) ∧
  (∀ c : Config, State.build c = .ok (State.resetWith c) ∨ ∃ e, State.build c = .error e) ∧
  State.build defaultConfig = .ok State.reset

/-! ### Whole-machine rules -/

/-- The invariant holds right after reset; the environment it speaks of is the one of log entry 4. -/
def Obligations.InvAtReset : Prop :=
  stateInv State.reset = true

/-- The invariant is kept by every step from every state that meets it: flags as R30 says, `(EC, PH)` (0, 0) while idle,
the latches those of transaction `EC` of the command in `CW`, no send in phase 7, the reference controller in step with
the phase, parameters well formed, device memory in canonical form. -/
def Obligations.InvKept : Prop :=
  ∀ s t : State, stateInv s = true → step s = .next t → stateInv t = true

/-- R14: no fault outcome stops the block: from every state that meets the invariant, a step answers a next state. -/
def Obligations.NeverStops : Prop :=
  ∀ s : State, stateInv s = true → ∃ t, step s = .next t

/-- R30: `BUSY` and `DONE` are never both 1; after reset both are 0; after a transferred write to `CMD` exactly one of them
is 1, until reset; `ERR` is nonzero only when `DONE` is 1 and `BUSY` is 0. -/
def Obligations.BusyDoneErr : Prop :=
  (State.reset.block.busy = false ∧ State.reset.block.done = false) ∧
    (∀ s t : State, stateInv s = true → step s = .next t →
      ¬ (t.block.busy = true ∧ t.block.done = true) ∧
        (t.block.err ≠ .none → t.block.done = true ∧ t.block.busy = false)) ∧
    (∀ (s t : State) (w : Word), stateInv s = true → s.block.busy = false → hostWrite 0 w s = .next t →
      t.block.busy ≠ t.block.done) ∧
    ∀ s t : State, stateInv s = true → s.block.busy ≠ s.block.done → step s = .next t →
      t.block.busy ≠ t.block.done ∨ ∃ rest, s.turns = .host .reset :: rest ∧ t = { s with turns := rest }.resetInput

/-- R111: every sequencer step appends exactly one micro-operation to the trace, the word of the one it emits; the accept
step, a refusal and every host move append none. (The reset input is the one host move after which the trace begins anew,
the model's choice, log entry 7.) So a step appends at most one. -/
def Obligations.TraceGrowth : Prop :=
  (∀ (s t : State) (i : Instr), currentOp s.cfg s.block = some i → exec i s = .next t →
      ∃ u a, encode i = .microOp u ∧ t.trace = s.trace ++ [⟨u, a⟩]) ∧
    (∀ (s t : State) (n : Nat) (w : Word), hostWrite n w s = .next t → t.trace = s.trace) ∧
    (∀ (s t : State) (m : HostMove), m ≠ .reset → hostMove m s = .next t → t.trace = s.trace) ∧
    ∀ s t : State, step s = .next t →
      (s.block.busy = true ∧ ∃ e, t.trace = s.trace ++ [e]) ∨ t.trace = s.trace ∨
        ∃ rest, s.turns = .host .reset :: rest ∧ t = { s with turns := rest }.resetInput

/-- R111, R34: "The block never reads the trace." Two runs that differ in the trace alone differ in nothing else. -/
def Obligations.TraceNeverRead : Prop :=
  ∀ (s t : State) (l : List TraceEntry), step s = .next t →
    ∃ t', step { s with trace := l } = .next t' ∧ t' = { t with trace := t'.trace }

/-- R119: the block observes the environment through the busy bit answered to a `POLL` and the byte answered to a `GET`
alone: two environments that answer the same have the same effect on the block. -/
def Obligations.EnvironmentSeenThroughAnswers : Prop :=
  ∀ (s t t' : State) (e : Env), e.busyAnswer = s.env.busyAnswer → e.byteAnswer = s.env.byteAnswer →
    step s = .next t → step { s with env := e } = .next t' → t'.block = t.block

/-- R40, R172, R238: while a command runs, `V` and `RW` change only in the step that ends it. -/
def Obligations.ResultsAppearInLastStep : Prop :=
  ∀ s t : State, stateInv s = true → s.block.busy = true → step s = .next t →
    t.block.v ≠ s.block.v ∨ t.block.rw ≠ s.block.rw → t.block.busy = false ∧ t.block.done = true

/-- R9, R8: no step changes a parameter; the host port changes no environment, and the environment's kind and device
address never change. -/
def Obligations.ParametersNeverChange : Prop :=
  ∀ s t : State, step s = .next t →
    t.cfg = s.cfg ∧ t.env.mode = s.env.mode ∧ t.env.devAddr = s.env.devAddr ∧ (s.block.busy = false → t.env = s.env)

/-- R28, R130, R14: while a command runs, every sequencer step but a `POLL` answered busy takes exactly one phase off the
work left, and a `POLL` answered busy changes nothing in the block. -/
def Obligations.WorkDecreases : Prop :=
  ∀ s t : State, stateInv s = true → s.block.busy = true → s.turns = [] → step s = .next t →
    (s.pollsBusy = true → t.block = s.block) ∧
      (s.pollsBusy = false → t.block.work s.cfg + 1 = s.block.work s.cfg)

/-- R15, R239, R120: a running command ends if the host leaves it alone and the premise `BC_LIVE` holds of the run; also if
the environment is the reference one, or the coming answers hold 48 times "not busy", the model's condition on the state
alone (log entry 15). -/
def Obligations.CommandEndsIfLive : Prop :=
  ∀ s : State, stateInv s = true → s.block.busy = true → s.turns = [] → s.BcLive ∨ s.answersSuffice = true →
    ∃ n t, run n s = .next t ∧ t.block.busy = false ∧ t.block.done = true

/-- R210, R239, R132: a busy-wait that is answered busy `n` times takes `n` steps in which nothing in the block changes,
`DONE` stays 0, a held write stays held, and the trace gets `n` `POLL`s: there is no bound on `n`, so no timeout. -/
def Obligations.HangsWhileBusy : Prop :=
  ∀ (n : Nat) (s : State) (rest : List Bool), s.block.busy = true → s.block.ph = 3#3 ∨ s.block.ph = 6#3 →
    s.turns = [] → s.env.mode = .free → s.env.draws.busy = List.replicate n true ++ rest →
    run n s = .next { s with
      trace := s.trace ++ List.replicate n ⟨0x300#11, .busy true⟩,
      env := { s.env with draws := { s.env.draws with busy := rest } } }

/-! ### Whole transactions and whole commands -/

/-- R133, R135: a receive transaction, from phase 0 to the step that ends it, whatever the waits and the byte: 8 phases
and one more step for each busy answer, exactly this trace, the byte in `RD`. -/
def Obligations.ReceiveTransactionRuns : Prop :=
  ∀ (s : State) (a b : Nat) (x : Byte) (bits : List Bool) (bytes : List Byte),
    s.block.busy = true → s.block.tk = .receive → s.block.ph = 0#3 → s.turns = [] → s.env.mode = .free →
    s.env.draws.busy = waitBits a ++ waitBits b ++ bits → s.env.draws.byte = x :: bytes →
    run (8 + a + b) s = .next { s with
      block := endTransaction s.cfg { s.block with ph := 7, rd := x },
      trace := s.trace ++ receiveTrace s.cfg.recvWriteCtrl s.block.tsa s.block.tra a b x,
      env := { s.env with draws := { s.env.draws with busy := bits, byte := bytes } } }

/-- R136, R138: a send transaction, from phase 0 to the step that ends it, whatever the waits: 7 phases and one more step
for each busy answer, exactly this trace. -/
def Obligations.SendTransactionRuns : Prop :=
  ∀ (s : State) (a b : Nat) (bits : List Bool),
    s.block.busy = true → s.block.tk = .send → s.block.ph = 0#3 → s.turns = [] → s.env.mode = .free →
    s.env.draws.busy = waitBits a ++ waitBits b ++ bits →
    run (7 + a + b) s = .next { s with
      block := endTransaction s.cfg { s.block with ph := 6 },
      trace := s.trace ++ sendTrace s.block.tsa s.block.tra s.block.twd a b,
      env := { s.env with draws := { s.env.draws with busy := bits } } }

/-- R134, R137: `RECVB sa, ra` and `SENDB sa, ra, d` from the host's write to the step that sets `DONE`. -/
def Obligations.TransactionCommandsRun : Prop :=
  ∀ (s : State) (sa : SlaveAddr) (ra d : Byte) (x : Exchange) (bits : List Bool) (bytes : List Byte),
    s.block.busy = false → s.held = none → s.env.mode = .free → s.env.draws.busy = exchangeBits [x] ++ bits →
    s.env.draws.byte = x.byte :: bytes →
    (s.turns = [.host (.write 0 (formatT 0x1 sa ra 0))] →
      run (1 + exchangeSteps 8 [x]) s = .next { s with
        turns := [],
        block := { s.block with
          cw := formatT 0x1 sa ra 0, rd := x.byte, busy := false, done := true, err := .none, ec := 0, ph := 0,
          tk := .receive, tsa := sa, tra := ra },
        trace := s.trace ++ receiveTrace s.cfg.recvWriteCtrl sa ra x.before x.after x.byte,
        env := { s.env with draws := { s.env.draws with busy := bits, byte := bytes } } }) ∧
    (s.turns = [.host (.write 0 (formatT 0x2 sa ra d))] →
      run (1 + exchangeSteps 7 [x]) s = .next { s with
        turns := [],
        block := { s.block with
          cw := formatT 0x2 sa ra d, busy := false, done := true, err := .none, ec := 0, ph := 0,
          tk := .send, tsa := sa, tra := ra, twd := d },
        trace := s.trace ++ sendTrace sa ra d x.before x.after,
        env := { s.env with draws := { s.env.draws with busy := bits } } })

/-- R171 to R173: `RDREG ra` and `WRREG ra` from the host's write to the step that sets `DONE`. After `RDREG` the raw byte
is in `RD` and its fields in `V[0..n-1]`, `V[n..7]` unchanged; `WRREG` sends the encoding of `V[0..n-1]` and leaves `V`
and `RD`. -/
def Obligations.RegisterCommandsRun : Prop :=
  ∀ (s : State) (ra : Byte) (fs : List Field) (x : Exchange) (bits : List Bool) (bytes : List Byte),
    fieldsOf s.cfg ra = some fs → s.block.busy = false → s.held = none → s.env.mode = .free →
    s.env.draws.busy = exchangeBits [x] ++ bits → s.env.draws.byte = x.byte :: bytes →
    (s.turns = [.host (.write 0 (formatR 0x5 0 ra 0))] → ∃ v : Vector Byte 8,
      run (1 + exchangeSteps 8 [x]) s = .next { s with
        turns := [],
        block := { s.block with
          cw := formatR 0x5 0 ra 0, rd := x.byte, v := v, busy := false, done := true, err := .none, ec := 0, ph := 0,
          tk := .receive, tsa := s.cfg.slaveAddr, tra := ra },
        trace := s.trace ++ receiveTrace s.cfg.recvWriteCtrl s.cfg.slaveAddr ra x.before x.after x.byte,
        env := { s.env with draws := { s.env.draws with busy := bits, byte := bytes } } } ∧
      (∀ i f, fs[i]? = some f → i < 8 →
        v[i]? = some (BitVec.ofNat 8 ((x.byte.toNat >>> f.offset) &&& ((1 <<< f.width) - 1)))) ∧
      ∀ i : Nat, fs.length ≤ i → v[i]? = s.block.v[i]?) ∧
    (s.turns = [.host (.write 0 (formatR 0x6 0 ra 0))] →
      run (1 + exchangeSteps 7 [x]) s = .next { s with
        turns := [],
        block := { s.block with
          cw := formatR 0x6 0 ra 0, busy := false, done := true, err := .none, ec := 0, ph := 0,
          tk := .send, tsa := s.cfg.slaveAddr, tra := ra,
          twd := encodeFields fs (s.block.v.toList.take fs.length) },
        trace := s.trace ++
          sendTrace s.cfg.slaveAddr ra (encodeFields fs (s.block.v.toList.take fs.length)) x.before x.after,
        env := { s.env with draws := { s.env.draws with busy := bits } } })

/-- R175, R54, R55: `RDPAIR ra` from the host's write to the step that sets `DONE`: exactly two receives, `addrH` first,
`RW` the high-order byte in bits [15:8] and the low-order byte in bits [7:0], `RD` the low-order byte. -/
def Obligations.RdpairRuns : Prop :=
  ∀ (s : State) (ra : Byte) (p : PairEntry) (x y : Exchange) (bits : List Bool) (bytes : List Byte),
    pairOf s.cfg ra = some p → s.block.busy = false → s.held = none →
    s.turns = [.host (.write 0 (formatR 0x7 0 ra 0))] → s.env.mode = .free →
    s.env.draws.busy = exchangeBits [x, y] ++ bits → s.env.draws.byte = x.byte :: y.byte :: bytes →
    run (1 + exchangeSteps 8 [x, y]) s = .next { s with
      turns := [],
      block := { s.block with
        cw := formatR 0x7 0 ra 0, rd := y.byte, rw := x.byte ++ y.byte, hi := x.byte, busy := false, done := true,
        err := .none, ec := 0, ph := 0, tk := .receive, tsa := s.cfg.slaveAddr, tra := p.addrL },
      trace := s.trace ++ receiveTrace s.cfg.recvWriteCtrl s.cfg.slaveAddr p.addrH x.before x.after x.byte ++
        receiveTrace s.cfg.recvWriteCtrl s.cfg.slaveAddr p.addrL y.before y.after y.byte,
      env := { s.env with draws := { s.env.draws with busy := bits, byte := bytes } } }

/-- R177, R178: `RDARR ra, idx` and `WRARR ra, idx, d` with a legal index, from the host's write to the step that sets
`DONE`: exactly one transaction at address `ra + idx`. -/
def Obligations.ArrayElementRuns : Prop :=
  ∀ (s : State) (ra idx d a : Byte) (e : ArrEntry) (x : Exchange) (bits : List Bool) (bytes : List Byte),
    s.cfg.wf = true → arrayOf s.cfg ra = some e → idx.toNat < e.count → a.toNat = ra.toNat + idx.toNat →
    s.block.busy = false → s.held = none → s.env.mode = .free → s.env.draws.busy = exchangeBits [x] ++ bits →
    s.env.draws.byte = x.byte :: bytes →
    (s.turns = [.host (.write 0 (formatR 0x8 idx ra 0))] →
      run (1 + exchangeSteps 8 [x]) s = .next { s with
        turns := [],
        block := { s.block with
          cw := formatR 0x8 idx ra 0, rd := x.byte, busy := false, done := true, err := .none, ec := 0, ph := 0,
          tk := .receive, tsa := s.cfg.slaveAddr, tra := a },
        trace := s.trace ++ receiveTrace s.cfg.recvWriteCtrl s.cfg.slaveAddr a x.before x.after x.byte,
        env := { s.env with draws := { s.env.draws with busy := bits, byte := bytes } } }) ∧
    (s.turns = [.host (.write 0 (formatR 0x9 idx ra d))] →
      run (1 + exchangeSteps 7 [x]) s = .next { s with
        turns := [],
        block := { s.block with
          cw := formatR 0x9 idx ra d, busy := false, done := true, err := .none, ec := 0, ph := 0,
          tk := .send, tsa := s.cfg.slaveAddr, tra := a, twd := d },
        trace := s.trace ++ sendTrace s.cfg.slaveAddr a d x.before x.after,
        env := { s.env with draws := { s.env.draws with busy := bits } } })

/-- R179, R61: `RDBANK ra` from the host's write to the step that sets `DONE`, whatever the answers: exactly `count` receive
transactions in ascending address order, element `k` in `BUF[k]`, the last one in `RD`, `BUF[count..23]`, `V` and `RW`
unchanged. -/
def Obligations.RdbankRuns : Prop :=
  ∀ (s : State) (ra : Byte) (e : ArrEntry) (l : List Exchange) (bits : List Bool) (bytes : List Byte),
    s.cfg.wf = true → arrayOf s.cfg ra = some e → l.length = e.count → s.block.busy = false → s.held = none →
    s.turns = [.host (.write 0 (formatR 0xA 0 ra 0))] → s.env.mode = .free →
    s.env.draws.busy = exchangeBits l ++ bits → s.env.draws.byte = l.map (·.byte) ++ bytes →
    ∃ t, run (1 + exchangeSteps 8 l) s = .next t ∧
      t.trace = s.trace ++ bankReadTrace s.cfg.recvWriteCtrl s.cfg.slaveAddr ra 0 l ∧
      (∀ (k : Nat) (x : Exchange), l[k]? = some x → t.block.buf[k]? = some x.byte) ∧
      (∀ k : Nat, e.count ≤ k → t.block.buf[k]? = s.block.buf[k]?) ∧
      (∀ x, l.getLast? = some x → t.block.rd = x.byte) ∧
      (t.block.busy = false ∧ t.block.done = true ∧ t.block.err = .none ∧ t.block.ec = 0#5 ∧ t.block.ph = 0#3 ∧
        t.block.cw = formatR 0xA 0 ra 0) ∧
      (t.block.v = s.block.v ∧ t.block.rw = s.block.rw ∧ t.block.hi = s.block.hi ∧ t.block.twd = s.block.twd) ∧
      t.env = { s.env with draws := { s.env.draws with busy := bits, byte := bytes } } ∧
      t.cfg = s.cfg ∧ t.turns = [] ∧ t.held = none ∧ t.reads = s.reads

/-- R180, R61: `WRBANK ra` from the host's write to the step that sets `DONE`, whatever the answers: exactly `count` send
transactions in ascending address order, element `k` with data `BUF[k]`; `BUF`, `RD`, `V`, `RW` unchanged. -/
def Obligations.WrbankRuns : Prop :=
  ∀ (s : State) (ra : Byte) (e : ArrEntry) (l : List Exchange) (bits : List Bool),
    s.cfg.wf = true → arrayOf s.cfg ra = some e → l.length = e.count → s.block.busy = false → s.held = none →
    s.turns = [.host (.write 0 (formatR 0xB 0 ra 0))] → s.env.mode = .free →
    s.env.draws.busy = exchangeBits l ++ bits →
    ∃ t, run (1 + exchangeSteps 7 l) s = .next t ∧
      t.trace = s.trace ++ bankWriteTrace s.cfg.slaveAddr ra s.block 0 l ∧
      (t.block.busy = false ∧ t.block.done = true ∧ t.block.err = .none ∧ t.block.ec = 0#5 ∧ t.block.ph = 0#3 ∧
        t.block.cw = formatR 0xB 0 ra 0) ∧
      (t.block.v = s.block.v ∧ t.block.rd = s.block.rd ∧ t.block.rw = s.block.rw ∧ t.block.buf = s.block.buf ∧
        t.block.hi = s.block.hi) ∧
      t.env = { s.env with draws := { s.env.draws with busy := bits } } ∧
      t.cfg = s.cfg ∧ t.turns = [] ∧ t.held = none ∧ t.reads = s.reads

/-! ### The reference environment -/

/-- R121 to R124: `SENDB` in the reference environment. To the reference slave: the byte is in the device memory at its
address, every other byte reads as before, and the wire carries the send framing. To a slave address that no device
answers: the command ends in the same way, with the same trace, and no byte of the device memory changes. -/
def Obligations.SendbInReference : Prop :=
  ∀ (s : State) (sa : SlaveAddr) (ra d : Byte) (a b : Nat) (counts : List Nat),
    s.block.busy = false → s.held = none → s.turns = [.host (.write 0 (formatT 0x2 sa ra d))] →
    s.env.mode = .reference → s.env.draws.count = a :: b :: counts →
    ∃ t, run (1 + (7 + a + b)) s = .next t ∧ t.block.busy = false ∧ t.block.done = true ∧ t.block.err = .none ∧
      t.trace = s.trace ++ sendTrace sa ra d a b ∧
      (sa = s.env.devAddr → t.env.slv.read ra = some d ∧
        (∀ x : Byte, x ≠ ra → t.env.slv.read x = s.env.slv.read x) ∧ t.env.wire = s.env.wire ++ wireSend sa ra d) ∧
      (sa ≠ s.env.devAddr → ∀ x : Byte, t.env.slv.read x = s.env.slv.read x)

/-- R121 to R124, R209: `RECVB` in the reference environment, with no write transaction left open from before a reset or
with `RECV_WRITE_CTRL` 3, which replaces one. From the reference slave: `RD` is what the device memory holds at the address,
and the wire carries the receive framing of `RECV_WRITE_CTRL`. From a slave address that no device answers: the command ends
in the same way, with the same trace, and `RD` is the drawn byte. No byte of the device memory changes either way. -/
def Obligations.RecvbOnReferenceSlave : Prop :=
  ∀ (s : State) (sa : SlaveAddr) (ra : Byte) (a b : Nat) (counts : List Nat), s.cfg.recvWriteCtrl ≠ .burstFinish →
    s.block.busy = false → s.held = none → s.turns = [.host (.write 0 (formatT 0x1 sa ra 0))] →
    s.env.mode = .reference → s.env.opn = none ∨ s.cfg.recvWriteCtrl = .burstStart →
    s.env.draws.count = a :: b :: counts →
    let x := if sa = s.env.devAddr then s.env.slvAt ra else s.env.draws.byteValue
    ∃ t, run (1 + (8 + a + b)) s = .next t ∧ t.block.busy = false ∧ t.block.done = true ∧ t.block.err = .none ∧
      t.block.rd = x ∧ t.trace = s.trace ++ receiveTrace s.cfg.recvWriteCtrl sa ra a b x ∧
      (∀ y : Byte, t.env.slv.read y = s.env.slv.read y) ∧
      (sa = s.env.devAddr → t.env.wire = s.env.wire ++ wireReceive s.cfg.recvWriteCtrl sa ra x)
end

