-- ==== Sys2Proof/Laws/Encoding.lean ====
section
/-! SUPPORT. What each field of a word built by `formatT`, `formatR` or `formatU` is: one lemma per format and field;
and how a word is put together again from its fields. -/

namespace Sys2Proof

theorem opField_formatT (op : BitVec 4) (sa : SlaveAddr) (ra d : Byte) : opField (formatT op sa ra d) = op := by
  apply BitVec.eq_of_getLsbD_eq
  intro i hi
  interval_cases i <;>
    simp only [opField, formatT, BitVec.getLsbD_extractLsb', BitVec.getLsbD_append] <;> simp

theorem z1Field_formatT (op : BitVec 4) (sa : SlaveAddr) (ra d : Byte) : z1Field (formatT op sa ra d) = 0#4 := by
  apply BitVec.eq_of_getLsbD_eq
  intro i hi
  interval_cases i <;>
    simp only [z1Field, formatT, BitVec.getLsbD_extractLsb', BitVec.getLsbD_append] <;> simp

theorem z2Field_formatT (op : BitVec 4) (sa : SlaveAddr) (ra d : Byte) : z2Field (formatT op sa ra d) = 0#1 := by
  apply BitVec.eq_of_getLsbD_eq
  intro i hi
  interval_cases i
  simp only [z2Field, formatT, BitVec.getLsbD_extractLsb', BitVec.getLsbD_append]
  simp

theorem saField_formatT (op : BitVec 4) (sa : SlaveAddr) (ra d : Byte) : saField (formatT op sa ra d) = sa := by
  apply BitVec.eq_of_getLsbD_eq
  intro i hi
  interval_cases i <;>
    simp only [saField, formatT, BitVec.getLsbD_extractLsb', BitVec.getLsbD_append] <;> simp

theorem raField_formatT (op : BitVec 4) (sa : SlaveAddr) (ra d : Byte) : raField (formatT op sa ra d) = ra := by
  apply BitVec.eq_of_getLsbD_eq
  intro i hi
  interval_cases i <;>
    simp only [raField, formatT, BitVec.getLsbD_extractLsb', BitVec.getLsbD_append] <;> simp

theorem dField_formatT (op : BitVec 4) (sa : SlaveAddr) (ra d : Byte) : dField (formatT op sa ra d) = d := by
  apply BitVec.eq_of_getLsbD_eq
  intro i hi
  interval_cases i <;>
    simp only [dField, formatT, BitVec.getLsbD_extractLsb', BitVec.getLsbD_append] <;> simp

theorem opField_formatR (op : BitVec 4) (idx ra d : Byte) : opField (formatR op idx ra d) = op := by
  apply BitVec.eq_of_getLsbD_eq
  intro i hi
  interval_cases i <;>
    simp only [opField, formatR, BitVec.getLsbD_extractLsb', BitVec.getLsbD_append] <;> simp

theorem z1Field_formatR (op : BitVec 4) (idx ra d : Byte) : z1Field (formatR op idx ra d) = 0#4 := by
  apply BitVec.eq_of_getLsbD_eq
  intro i hi
  interval_cases i <;>
    simp only [z1Field, formatR, BitVec.getLsbD_extractLsb', BitVec.getLsbD_append] <;> simp

theorem idxField_formatR (op : BitVec 4) (idx ra d : Byte) : idxField (formatR op idx ra d) = idx := by
  apply BitVec.eq_of_getLsbD_eq
  intro i hi
  interval_cases i <;>
    simp only [idxField, formatR, BitVec.getLsbD_extractLsb', BitVec.getLsbD_append] <;> simp

theorem raField_formatR (op : BitVec 4) (idx ra d : Byte) : raField (formatR op idx ra d) = ra := by
  apply BitVec.eq_of_getLsbD_eq
  intro i hi
  interval_cases i <;>
    simp only [raField, formatR, BitVec.getLsbD_extractLsb', BitVec.getLsbD_append] <;> simp

theorem dField_formatR (op : BitVec 4) (idx ra d : Byte) : dField (formatR op idx ra d) = d := by
  apply BitVec.eq_of_getLsbD_eq
  intro i hi
  interval_cases i <;>
    simp only [dField, formatR, BitVec.getLsbD_extractLsb', BitVec.getLsbD_append] <;> simp

theorem kindField_formatU (k : BitVec 3) (p : Byte) : kindField (formatU k p) = k := by
  apply BitVec.eq_of_getLsbD_eq
  intro i hi
  interval_cases i <;>
    simp only [kindField, formatU, BitVec.getLsbD_extractLsb', BitVec.getLsbD_append] <;> simp

theorem payloadField_formatU (k : BitVec 3) (p : Byte) : payloadField (formatU k p) = p := by
  apply BitVec.eq_of_getLsbD_eq
  intro i hi
  interval_cases i <;>
    simp only [payloadField, formatU, BitVec.getLsbD_extractLsb', BitVec.getLsbD_append] <;> simp

/-- A word is put together again from its opcode, `z1` and the three bytes of format R. -/
theorem word_eq_append (w : Word) :
    opField w ++ z1Field w ++ idxField w ++ raField w ++ dField w = w := by
  apply BitVec.eq_of_getLsbD_eq
  intro i hi
  simp only [opField, z1Field, idxField, raField, dField, BitVec.getLsbD_append, BitVec.getLsbD_extractLsb']
  interval_cases i <;> simp

/-- A micro-operation word is put together again from its kind and payload. -/
theorem microWord_eq_append (u : MicroWord) : kindField u ++ payloadField u = u := by
  apply BitVec.eq_of_getLsbD_eq
  intro i hi
  simp only [kindField, payloadField, BitVec.getLsbD_append, BitVec.getLsbD_extractLsb']
  interval_cases i <;> simp

/-- Format T's `z2` and `sa` make up the byte `idx` of format R. -/
theorem idxField_eq_append (w : Word) : idxField w = z2Field w ++ saField w := by
  apply BitVec.eq_of_getLsbD_eq
  intro i hi
  interval_cases i <;>
    simp only [idxField, z2Field, saField, BitVec.getLsbD_append, BitVec.getLsbD_extractLsb'] <;> simp

end Sys2Proof
end

