-- ==== Sys2Proof/Laws/Memory.lean ====
section
/-! SUPPORT. The laws of the device register space: reading after a write, and that a write keeps the canonical form. -/

namespace Sys2Proof.Machine

theorem Memory.wfAbove_mono {lo lo' : Nat} {m : Memory} (h : lo' ≤ lo) (hm : m.wfAbove lo = true) :
    m.wfAbove lo' = true := by
  cases m with
  | nil => rfl
  | cons c rest =>
    obtain ⟨a, x⟩ := c
    simp only [Memory.wfAbove, Bool.and_eq_true, decide_eq_true_eq] at hm ⊢
    exact ⟨⟨by omega, hm.1.2⟩, hm.2⟩

theorem Memory.insert_wfAbove {lo k : Nat} {b : Byte} {m : Memory} (hk : lo ≤ k ∧ k < 256)
    (hm : m.wfAbove lo = true) : (Memory.insert k b m).wfAbove lo = true := by
  induction m generalizing lo with
  | nil => simp [Memory.insert, Memory.wfAbove, hk]
  | cons c rest ih =>
    obtain ⟨a, x⟩ := c
    simp only [Memory.wfAbove, Bool.and_eq_true, decide_eq_true_eq] at hm
    simp only [Memory.insert]
    split
    · simp only [Memory.wfAbove, Bool.and_eq_true, decide_eq_true_eq]
      exact ⟨hk, by omega, hm.2⟩
    · split
      · simp only [Memory.wfAbove, Bool.and_eq_true, decide_eq_true_eq]
        exact ⟨hm.1, hm.2⟩
      · simp only [Memory.wfAbove, Bool.and_eq_true, decide_eq_true_eq]
        exact ⟨hm.1, ih (by omega) hm.2⟩

/-- A write keeps the canonical form. -/
theorem Memory.write_wf {m : Memory} (a b : Byte) (hm : m.wf = true) : (m.write a b).wf = true :=
  Memory.insert_wfAbove ⟨Nat.zero_le _, a.isLt⟩ hm

theorem Memory.find_insert_same (k : Nat) (b : Byte) (m : Memory) :
    (Memory.insert k b m).find? (fun c => c.1 == k) = some (k, b) := by
  induction m with
  | nil => simp [Memory.insert]
  | cons c rest ih =>
    obtain ⟨a, x⟩ := c
    simp only [Memory.insert]
    split
    · simp
    · split
      · simp_all
      · have : (a == k) = false := by simp; omega
        simp [this, ih]

theorem Memory.find_insert_other {k j : Nat} (h : j ≠ k) (b : Byte) (m : Memory) :
    (Memory.insert k b m).find? (fun c => c.1 == j) = m.find? (fun c => c.1 == j) := by
  have hkj : (k == j) = false := by simp; omega
  induction m with
  | nil => simp [Memory.insert, hkj]
  | cons c rest ih =>
    obtain ⟨a, x⟩ := c
    simp only [Memory.insert]
    split
    · simp [hkj]
    · split
      · next h2 => subst h2; simp [hkj]
      · simp only [List.find?_cons, ih]

/-- A read after a write to the same address gives the byte written. -/
theorem Memory.read_write_same (m : Memory) (a b : Byte) : (m.write a b).read a = some b := by
  simp [Memory.read, Memory.write, Memory.find_insert_same]

/-- A write leaves every other address alone. -/
theorem Memory.read_write_other {m : Memory} {a c : Byte} (h : c ≠ a) (b : Byte) :
    (m.write a b).read c = m.read c := by
  have : c.toNat ≠ a.toNat := fun hc => h (BitVec.eq_of_toNat_eq hc)
  simp [Memory.read, Memory.write, Memory.find_insert_other this]

/-- The reference slave's write keeps the canonical form (R122). -/
theorem Env.slaveWrite_slv_wf (e : Env) (sa : SlaveAddr) (l : List Byte) (h : e.slv.wf = true) :
    (e.slaveWrite sa l).slv.wf = true := by
  simp only [Env.slaveWrite]
  split
  · exact Memory.write_wf _ _ h
  · exact h

/-- The byte the reference slave's write stores is what a read of that address gives. -/
theorem Env.slvAt_slaveWrite_same {e : Env} {sa : SlaveAddr} {l : List Byte} {a d : Byte}
    (h : e.slaveStore sa l = some (a, d)) : (e.slaveWrite sa l).slvAt a = d := by
  simp [Env.slaveWrite, Env.slvAt, h, Memory.read_write_same]

/-- The reference slave's write leaves every address alone that it does not store to. -/
theorem Env.slvAt_slaveWrite_other {e : Env} {sa : SlaveAddr} {l : List Byte} {c : Byte}
    (h : ∀ a d, e.slaveStore sa l = some (a, d) → c ≠ a) : (e.slaveWrite sa l).slvAt c = e.slvAt c := by
  simp only [Env.slaveWrite, Env.slvAt]
  split
  · next a d hs => rw [Memory.read_write_other (h a d hs)]
  · rfl

end Sys2Proof.Machine
end

