-- ==== Sys2Proof/Laws/State.lean ====
section
/-! SUPPORT. One lemma per field per named update of the block and of the machine, true by rfl or by cases on the
update's argument, so that no later proof unfolds a record update. -/

namespace Sys2Proof.Machine

/-! `Block.flagsRunning` -/

@[simp] theorem Block.flagsRunning_v (b : Block) : (b.flagsRunning).v = b.v := rfl
@[simp] theorem Block.flagsRunning_rd (b : Block) : (b.flagsRunning).rd = b.rd := rfl
@[simp] theorem Block.flagsRunning_rw (b : Block) : (b.flagsRunning).rw = b.rw := rfl
@[simp] theorem Block.flagsRunning_buf (b : Block) : (b.flagsRunning).buf = b.buf := rfl
@[simp] theorem Block.flagsRunning_cw (b : Block) : (b.flagsRunning).cw = b.cw := rfl
@[simp] theorem Block.flagsRunning_busy (b : Block) : (b.flagsRunning).busy = true := rfl
@[simp] theorem Block.flagsRunning_done (b : Block) : (b.flagsRunning).done = false := rfl
@[simp] theorem Block.flagsRunning_err (b : Block) : (b.flagsRunning).err = .none := rfl
@[simp] theorem Block.flagsRunning_ec (b : Block) : (b.flagsRunning).ec = b.ec := rfl
@[simp] theorem Block.flagsRunning_ph (b : Block) : (b.flagsRunning).ph = b.ph := rfl
@[simp] theorem Block.flagsRunning_tk (b : Block) : (b.flagsRunning).tk = b.tk := rfl
@[simp] theorem Block.flagsRunning_tsa (b : Block) : (b.flagsRunning).tsa = b.tsa := rfl
@[simp] theorem Block.flagsRunning_tra (b : Block) : (b.flagsRunning).tra = b.tra := rfl
@[simp] theorem Block.flagsRunning_twd (b : Block) : (b.flagsRunning).twd = b.twd := rfl
@[simp] theorem Block.flagsRunning_hi (b : Block) : (b.flagsRunning).hi = b.hi := rfl

/-! `Block.flagsEnded` -/

@[simp] theorem Block.flagsEnded_v (b : Block) : (b.flagsEnded).v = b.v := rfl
@[simp] theorem Block.flagsEnded_rd (b : Block) : (b.flagsEnded).rd = b.rd := rfl
@[simp] theorem Block.flagsEnded_rw (b : Block) : (b.flagsEnded).rw = b.rw := rfl
@[simp] theorem Block.flagsEnded_buf (b : Block) : (b.flagsEnded).buf = b.buf := rfl
@[simp] theorem Block.flagsEnded_cw (b : Block) : (b.flagsEnded).cw = b.cw := rfl
@[simp] theorem Block.flagsEnded_busy (b : Block) : (b.flagsEnded).busy = false := rfl
@[simp] theorem Block.flagsEnded_done (b : Block) : (b.flagsEnded).done = true := rfl
@[simp] theorem Block.flagsEnded_err (b : Block) : (b.flagsEnded).err = b.err := rfl
@[simp] theorem Block.flagsEnded_ec (b : Block) : (b.flagsEnded).ec = b.ec := rfl
@[simp] theorem Block.flagsEnded_ph (b : Block) : (b.flagsEnded).ph = b.ph := rfl
@[simp] theorem Block.flagsEnded_tk (b : Block) : (b.flagsEnded).tk = b.tk := rfl
@[simp] theorem Block.flagsEnded_tsa (b : Block) : (b.flagsEnded).tsa = b.tsa := rfl
@[simp] theorem Block.flagsEnded_tra (b : Block) : (b.flagsEnded).tra = b.tra := rfl
@[simp] theorem Block.flagsEnded_twd (b : Block) : (b.flagsEnded).twd = b.twd := rfl
@[simp] theorem Block.flagsEnded_hi (b : Block) : (b.flagsEnded).hi = b.hi := rfl

/-! `Block.raise` -/

@[simp] theorem Block.raise_v (b : Block) (e : ErrCode) : (b.raise e).v = b.v := rfl
@[simp] theorem Block.raise_rd (b : Block) (e : ErrCode) : (b.raise e).rd = b.rd := rfl
@[simp] theorem Block.raise_rw (b : Block) (e : ErrCode) : (b.raise e).rw = b.rw := rfl
@[simp] theorem Block.raise_buf (b : Block) (e : ErrCode) : (b.raise e).buf = b.buf := rfl
@[simp] theorem Block.raise_cw (b : Block) (e : ErrCode) : (b.raise e).cw = b.cw := rfl
@[simp] theorem Block.raise_busy (b : Block) (e : ErrCode) : (b.raise e).busy = b.busy := rfl
@[simp] theorem Block.raise_done (b : Block) (e : ErrCode) : (b.raise e).done = true := rfl
@[simp] theorem Block.raise_err (b : Block) (e : ErrCode) : (b.raise e).err = e := rfl
@[simp] theorem Block.raise_ec (b : Block) (e : ErrCode) : (b.raise e).ec = b.ec := rfl
@[simp] theorem Block.raise_ph (b : Block) (e : ErrCode) : (b.raise e).ph = b.ph := rfl
@[simp] theorem Block.raise_tk (b : Block) (e : ErrCode) : (b.raise e).tk = b.tk := rfl
@[simp] theorem Block.raise_tsa (b : Block) (e : ErrCode) : (b.raise e).tsa = b.tsa := rfl
@[simp] theorem Block.raise_tra (b : Block) (e : ErrCode) : (b.raise e).tra = b.tra := rfl
@[simp] theorem Block.raise_twd (b : Block) (e : ErrCode) : (b.raise e).twd = b.twd := rfl
@[simp] theorem Block.raise_hi (b : Block) (e : ErrCode) : (b.raise e).hi = b.hi := rfl

/-! `Block.complete` -/

@[simp] theorem Block.complete_v (b : Block) : (b.complete).v = b.v := rfl
@[simp] theorem Block.complete_rd (b : Block) : (b.complete).rd = b.rd := rfl
@[simp] theorem Block.complete_rw (b : Block) : (b.complete).rw = b.rw := rfl
@[simp] theorem Block.complete_buf (b : Block) : (b.complete).buf = b.buf := rfl
@[simp] theorem Block.complete_cw (b : Block) : (b.complete).cw = b.cw := rfl
@[simp] theorem Block.complete_busy (b : Block) : (b.complete).busy = b.busy := rfl
@[simp] theorem Block.complete_done (b : Block) : (b.complete).done = true := rfl
@[simp] theorem Block.complete_err (b : Block) : (b.complete).err = .none := rfl
@[simp] theorem Block.complete_ec (b : Block) : (b.complete).ec = b.ec := rfl
@[simp] theorem Block.complete_ph (b : Block) : (b.complete).ph = b.ph := rfl
@[simp] theorem Block.complete_tk (b : Block) : (b.complete).tk = b.tk := rfl
@[simp] theorem Block.complete_tsa (b : Block) : (b.complete).tsa = b.tsa := rfl
@[simp] theorem Block.complete_tra (b : Block) : (b.complete).tra = b.tra := rfl
@[simp] theorem Block.complete_twd (b : Block) : (b.complete).twd = b.twd := rfl
@[simp] theorem Block.complete_hi (b : Block) : (b.complete).hi = b.hi := rfl

/-! `Block.finish` -/

@[simp] theorem Block.finish_v (b : Block) : (b.finish).v = b.v := rfl
@[simp] theorem Block.finish_rd (b : Block) : (b.finish).rd = b.rd := rfl
@[simp] theorem Block.finish_rw (b : Block) : (b.finish).rw = b.rw := rfl
@[simp] theorem Block.finish_buf (b : Block) : (b.finish).buf = b.buf := rfl
@[simp] theorem Block.finish_cw (b : Block) : (b.finish).cw = b.cw := rfl
@[simp] theorem Block.finish_busy (b : Block) : (b.finish).busy = false := rfl
@[simp] theorem Block.finish_done (b : Block) : (b.finish).done = true := rfl
@[simp] theorem Block.finish_err (b : Block) : (b.finish).err = b.err := rfl
@[simp] theorem Block.finish_ec (b : Block) : (b.finish).ec = 0#5 := rfl
@[simp] theorem Block.finish_ph (b : Block) : (b.finish).ph = 0#3 := rfl
@[simp] theorem Block.finish_tk (b : Block) : (b.finish).tk = b.tk := rfl
@[simp] theorem Block.finish_tsa (b : Block) : (b.finish).tsa = b.tsa := rfl
@[simp] theorem Block.finish_tra (b : Block) : (b.finish).tra = b.tra := rfl
@[simp] theorem Block.finish_twd (b : Block) : (b.finish).twd = b.twd := rfl
@[simp] theorem Block.finish_hi (b : Block) : (b.finish).hi = b.hi := rfl

/-! `Block.nextPhase` -/

@[simp] theorem Block.nextPhase_v (b : Block) : (b.nextPhase).v = b.v := rfl
@[simp] theorem Block.nextPhase_rd (b : Block) : (b.nextPhase).rd = b.rd := rfl
@[simp] theorem Block.nextPhase_rw (b : Block) : (b.nextPhase).rw = b.rw := rfl
@[simp] theorem Block.nextPhase_buf (b : Block) : (b.nextPhase).buf = b.buf := rfl
@[simp] theorem Block.nextPhase_cw (b : Block) : (b.nextPhase).cw = b.cw := rfl
@[simp] theorem Block.nextPhase_busy (b : Block) : (b.nextPhase).busy = b.busy := rfl
@[simp] theorem Block.nextPhase_done (b : Block) : (b.nextPhase).done = b.done := rfl
@[simp] theorem Block.nextPhase_err (b : Block) : (b.nextPhase).err = b.err := rfl
@[simp] theorem Block.nextPhase_ec (b : Block) : (b.nextPhase).ec = b.ec := rfl
@[simp] theorem Block.nextPhase_ph (b : Block) : (b.nextPhase).ph = b.ph + 1#3 := rfl
@[simp] theorem Block.nextPhase_tk (b : Block) : (b.nextPhase).tk = b.tk := rfl
@[simp] theorem Block.nextPhase_tsa (b : Block) : (b.nextPhase).tsa = b.tsa := rfl
@[simp] theorem Block.nextPhase_tra (b : Block) : (b.nextPhase).tra = b.tra := rfl
@[simp] theorem Block.nextPhase_twd (b : Block) : (b.nextPhase).twd = b.twd := rfl
@[simp] theorem Block.nextPhase_hi (b : Block) : (b.nextPhase).hi = b.hi := rfl

/-! `Block.setView` -/

@[simp] theorem Block.setView_v (b : Block) (l : List Byte) : (b.setView l).v = storeFrom 0 l b.v := rfl
@[simp] theorem Block.setView_rd (b : Block) (l : List Byte) : (b.setView l).rd = b.rd := rfl
@[simp] theorem Block.setView_rw (b : Block) (l : List Byte) : (b.setView l).rw = b.rw := rfl
@[simp] theorem Block.setView_buf (b : Block) (l : List Byte) : (b.setView l).buf = b.buf := rfl
@[simp] theorem Block.setView_cw (b : Block) (l : List Byte) : (b.setView l).cw = b.cw := rfl
@[simp] theorem Block.setView_busy (b : Block) (l : List Byte) : (b.setView l).busy = b.busy := rfl
@[simp] theorem Block.setView_done (b : Block) (l : List Byte) : (b.setView l).done = b.done := rfl
@[simp] theorem Block.setView_err (b : Block) (l : List Byte) : (b.setView l).err = b.err := rfl
@[simp] theorem Block.setView_ec (b : Block) (l : List Byte) : (b.setView l).ec = b.ec := rfl
@[simp] theorem Block.setView_ph (b : Block) (l : List Byte) : (b.setView l).ph = b.ph := rfl
@[simp] theorem Block.setView_tk (b : Block) (l : List Byte) : (b.setView l).tk = b.tk := rfl
@[simp] theorem Block.setView_tsa (b : Block) (l : List Byte) : (b.setView l).tsa = b.tsa := rfl
@[simp] theorem Block.setView_tra (b : Block) (l : List Byte) : (b.setView l).tra = b.tra := rfl
@[simp] theorem Block.setView_twd (b : Block) (l : List Byte) : (b.setView l).twd = b.twd := rfl
@[simp] theorem Block.setView_hi (b : Block) (l : List Byte) : (b.setView l).hi = b.hi := rfl

/-! `Block.setBuf` -/

@[simp] theorem Block.setBuf_v (b : Block) (k : Nat) (x : Byte) : (b.setBuf k x).v = b.v := rfl
@[simp] theorem Block.setBuf_rd (b : Block) (k : Nat) (x : Byte) : (b.setBuf k x).rd = b.rd := rfl
@[simp] theorem Block.setBuf_rw (b : Block) (k : Nat) (x : Byte) : (b.setBuf k x).rw = b.rw := rfl
@[simp] theorem Block.setBuf_buf (b : Block) (k : Nat) (x : Byte) : (b.setBuf k x).buf = b.buf.setIfInBounds k x := rfl
@[simp] theorem Block.setBuf_cw (b : Block) (k : Nat) (x : Byte) : (b.setBuf k x).cw = b.cw := rfl
@[simp] theorem Block.setBuf_busy (b : Block) (k : Nat) (x : Byte) : (b.setBuf k x).busy = b.busy := rfl
@[simp] theorem Block.setBuf_done (b : Block) (k : Nat) (x : Byte) : (b.setBuf k x).done = b.done := rfl
@[simp] theorem Block.setBuf_err (b : Block) (k : Nat) (x : Byte) : (b.setBuf k x).err = b.err := rfl
@[simp] theorem Block.setBuf_ec (b : Block) (k : Nat) (x : Byte) : (b.setBuf k x).ec = b.ec := rfl
@[simp] theorem Block.setBuf_ph (b : Block) (k : Nat) (x : Byte) : (b.setBuf k x).ph = b.ph := rfl
@[simp] theorem Block.setBuf_tk (b : Block) (k : Nat) (x : Byte) : (b.setBuf k x).tk = b.tk := rfl
@[simp] theorem Block.setBuf_tsa (b : Block) (k : Nat) (x : Byte) : (b.setBuf k x).tsa = b.tsa := rfl
@[simp] theorem Block.setBuf_tra (b : Block) (k : Nat) (x : Byte) : (b.setBuf k x).tra = b.tra := rfl
@[simp] theorem Block.setBuf_twd (b : Block) (k : Nat) (x : Byte) : (b.setBuf k x).twd = b.twd := rfl
@[simp] theorem Block.setBuf_hi (b : Block) (k : Nat) (x : Byte) : (b.setBuf k x).hi = b.hi := rfl

/-! `Block.resetControl` -/

@[simp] theorem Block.resetControl_v (b : Block) : (b.resetControl).v = b.v := rfl
@[simp] theorem Block.resetControl_rd (b : Block) : (b.resetControl).rd = b.rd := rfl
@[simp] theorem Block.resetControl_rw (b : Block) : (b.resetControl).rw = b.rw := rfl
@[simp] theorem Block.resetControl_buf (b : Block) : (b.resetControl).buf = b.buf := rfl
@[simp] theorem Block.resetControl_cw (b : Block) : (b.resetControl).cw = 0#32 := rfl
@[simp] theorem Block.resetControl_busy (b : Block) : (b.resetControl).busy = false := rfl
@[simp] theorem Block.resetControl_done (b : Block) : (b.resetControl).done = false := rfl
@[simp] theorem Block.resetControl_err (b : Block) : (b.resetControl).err = .none := rfl
@[simp] theorem Block.resetControl_ec (b : Block) : (b.resetControl).ec = 0#5 := rfl
@[simp] theorem Block.resetControl_ph (b : Block) : (b.resetControl).ph = 0#3 := rfl
@[simp] theorem Block.resetControl_tk (b : Block) : (b.resetControl).tk = b.tk := rfl
@[simp] theorem Block.resetControl_tsa (b : Block) : (b.resetControl).tsa = b.tsa := rfl
@[simp] theorem Block.resetControl_tra (b : Block) : (b.resetControl).tra = b.tra := rfl
@[simp] theorem Block.resetControl_twd (b : Block) : (b.resetControl).twd = b.twd := rfl
@[simp] theorem Block.resetControl_hi (b : Block) : (b.resetControl).hi = b.hi := rfl

/-! `Block.latch` -/

@[simp] theorem Block.latch_v (b : Block) (w : Encoded) : (b.latch w).v = b.v := by cases w <;> rfl
@[simp] theorem Block.latch_rd (b : Block) (w : Encoded) : (b.latch w).rd = b.rd := by cases w <;> rfl
@[simp] theorem Block.latch_rw (b : Block) (w : Encoded) : (b.latch w).rw = b.rw := by cases w <;> rfl
@[simp] theorem Block.latch_buf (b : Block) (w : Encoded) : (b.latch w).buf = b.buf := by cases w <;> rfl
@[simp] theorem Block.latch_busy (b : Block) (w : Encoded) : (b.latch w).busy = b.busy := by cases w <;> rfl
@[simp] theorem Block.latch_done (b : Block) (w : Encoded) : (b.latch w).done = b.done := by cases w <;> rfl
@[simp] theorem Block.latch_err (b : Block) (w : Encoded) : (b.latch w).err = b.err := by cases w <;> rfl
@[simp] theorem Block.latch_ec (b : Block) (w : Encoded) : (b.latch w).ec = b.ec := by cases w <;> rfl
@[simp] theorem Block.latch_ph (b : Block) (w : Encoded) : (b.latch w).ph = b.ph := by cases w <;> rfl
@[simp] theorem Block.latch_tk (b : Block) (w : Encoded) : (b.latch w).tk = b.tk := by cases w <;> rfl
@[simp] theorem Block.latch_tsa (b : Block) (w : Encoded) : (b.latch w).tsa = b.tsa := by cases w <;> rfl
@[simp] theorem Block.latch_tra (b : Block) (w : Encoded) : (b.latch w).tra = b.tra := by cases w <;> rfl
@[simp] theorem Block.latch_twd (b : Block) (w : Encoded) : (b.latch w).twd = b.twd := by cases w <;> rfl
@[simp] theorem Block.latch_hi (b : Block) (w : Encoded) : (b.latch w).hi = b.hi := by cases w <;> rfl

@[simp] theorem Block.latch_cw (b : Block) (w : Word) : (b.latch (.command w)).cw = w := rfl

/-! `Block.start` -/

@[simp] theorem Block.start_v (b : Block) (t : Transaction) : (b.start t).v = b.v := by cases t <;> rfl
@[simp] theorem Block.start_rd (b : Block) (t : Transaction) : (b.start t).rd = b.rd := by cases t <;> rfl
@[simp] theorem Block.start_rw (b : Block) (t : Transaction) : (b.start t).rw = b.rw := by cases t <;> rfl
@[simp] theorem Block.start_buf (b : Block) (t : Transaction) : (b.start t).buf = b.buf := by cases t <;> rfl
@[simp] theorem Block.start_cw (b : Block) (t : Transaction) : (b.start t).cw = b.cw := by cases t <;> rfl
@[simp] theorem Block.start_busy (b : Block) (t : Transaction) : (b.start t).busy = b.busy := by cases t <;> rfl
@[simp] theorem Block.start_done (b : Block) (t : Transaction) : (b.start t).done = b.done := by cases t <;> rfl
@[simp] theorem Block.start_err (b : Block) (t : Transaction) : (b.start t).err = b.err := by cases t <;> rfl
@[simp] theorem Block.start_ec (b : Block) (t : Transaction) : (b.start t).ec = b.ec := by cases t <;> rfl
@[simp] theorem Block.start_ph (b : Block) (t : Transaction) : (b.start t).ph = 0#3 := by cases t <;> rfl
@[simp] theorem Block.start_hi (b : Block) (t : Transaction) : (b.start t).hi = b.hi := by cases t <;> rfl

/-! `Block.accept` -/

@[simp] theorem Block.accept_v (b : Block) (t : Transaction) : (b.accept t).v = b.v := by cases t <;> rfl
@[simp] theorem Block.accept_rd (b : Block) (t : Transaction) : (b.accept t).rd = b.rd := by cases t <;> rfl
@[simp] theorem Block.accept_rw (b : Block) (t : Transaction) : (b.accept t).rw = b.rw := by cases t <;> rfl
@[simp] theorem Block.accept_buf (b : Block) (t : Transaction) : (b.accept t).buf = b.buf := by cases t <;> rfl
@[simp] theorem Block.accept_cw (b : Block) (t : Transaction) : (b.accept t).cw = b.cw := by cases t <;> rfl
@[simp] theorem Block.accept_busy (b : Block) (t : Transaction) : (b.accept t).busy = true := by cases t <;> rfl
@[simp] theorem Block.accept_done (b : Block) (t : Transaction) : (b.accept t).done = false := by cases t <;> rfl
@[simp] theorem Block.accept_err (b : Block) (t : Transaction) : (b.accept t).err = .none := by cases t <;> rfl
@[simp] theorem Block.accept_ec (b : Block) (t : Transaction) : (b.accept t).ec = 0#5 := by cases t <;> rfl
@[simp] theorem Block.accept_ph (b : Block) (t : Transaction) : (b.accept t).ph = 0#3 := by cases t <;> rfl
@[simp] theorem Block.accept_hi (b : Block) (t : Transaction) : (b.accept t).hi = b.hi := by cases t <;> rfl

@[simp] theorem Block.start_receive_tk (b : Block) (sa : SlaveAddr) (ra : Byte) :
    (b.start (.receive sa ra)).tk = .receive := rfl
@[simp] theorem Block.start_receive_tsa (b : Block) (sa : SlaveAddr) (ra : Byte) :
    (b.start (.receive sa ra)).tsa = sa := rfl
@[simp] theorem Block.start_receive_tra (b : Block) (sa : SlaveAddr) (ra : Byte) :
    (b.start (.receive sa ra)).tra = ra := rfl
@[simp] theorem Block.start_receive_twd (b : Block) (sa : SlaveAddr) (ra : Byte) :
    (b.start (.receive sa ra)).twd = b.twd := rfl
@[simp] theorem Block.start_send_tk (b : Block) (sa : SlaveAddr) (ra d : Byte) :
    (b.start (.send sa ra d)).tk = .send := rfl
@[simp] theorem Block.start_send_tsa (b : Block) (sa : SlaveAddr) (ra d : Byte) :
    (b.start (.send sa ra d)).tsa = sa := rfl
@[simp] theorem Block.start_send_tra (b : Block) (sa : SlaveAddr) (ra d : Byte) :
    (b.start (.send sa ra d)).tra = ra := rfl
@[simp] theorem Block.start_send_twd (b : Block) (sa : SlaveAddr) (ra d : Byte) :
    (b.start (.send sa ra d)).twd = d := rfl

@[simp] theorem Block.accept_receive_tk (b : Block) (sa : SlaveAddr) (ra : Byte) :
    (b.accept (.receive sa ra)).tk = .receive := rfl
@[simp] theorem Block.accept_receive_tsa (b : Block) (sa : SlaveAddr) (ra : Byte) :
    (b.accept (.receive sa ra)).tsa = sa := rfl
@[simp] theorem Block.accept_receive_tra (b : Block) (sa : SlaveAddr) (ra : Byte) :
    (b.accept (.receive sa ra)).tra = ra := rfl
@[simp] theorem Block.accept_receive_twd (b : Block) (sa : SlaveAddr) (ra : Byte) :
    (b.accept (.receive sa ra)).twd = b.twd := rfl
@[simp] theorem Block.accept_send_tk (b : Block) (sa : SlaveAddr) (ra d : Byte) :
    (b.accept (.send sa ra d)).tk = .send := rfl
@[simp] theorem Block.accept_send_tsa (b : Block) (sa : SlaveAddr) (ra d : Byte) :
    (b.accept (.send sa ra d)).tsa = sa := rfl
@[simp] theorem Block.accept_send_tra (b : Block) (sa : SlaveAddr) (ra d : Byte) :
    (b.accept (.send sa ra d)).tra = ra := rfl
@[simp] theorem Block.accept_send_twd (b : Block) (sa : SlaveAddr) (ra d : Byte) :
    (b.accept (.send sa ra d)).twd = d := rfl

/-! `State.withBlock`, `State.emit`, `State.resetInput` -/

@[simp] theorem State.withBlock_block (s : State) (b : Block) : (s.withBlock b).block = b := rfl
@[simp] theorem State.withBlock_cfg (s : State) (b : Block) : (s.withBlock b).cfg = s.cfg := rfl
@[simp] theorem State.withBlock_turns (s : State) (b : Block) : (s.withBlock b).turns = s.turns := rfl
@[simp] theorem State.withBlock_held (s : State) (b : Block) : (s.withBlock b).held = s.held := rfl
@[simp] theorem State.withBlock_reads (s : State) (b : Block) : (s.withBlock b).reads = s.reads := rfl
@[simp] theorem State.withBlock_trace (s : State) (b : Block) : (s.withBlock b).trace = s.trace := rfl
@[simp] theorem State.withBlock_env (s : State) (b : Block) : (s.withBlock b).env = s.env := rfl
@[simp] theorem State.withBlock_withBlock (s : State) (a b : Block) : (s.withBlock a).withBlock b = s.withBlock b := rfl
@[simp] theorem State.withBlock_self (s : State) : s.withBlock s.block = s := rfl

@[simp] theorem State.emit_block (s : State) (w : Encoded) (a : Answer) (e : Env) : (s.emit w a e).block = s.block := by
  cases w <;> rfl
@[simp] theorem State.emit_cfg (s : State) (w : Encoded) (a : Answer) (e : Env) : (s.emit w a e).cfg = s.cfg := by
  cases w <;> rfl
@[simp] theorem State.emit_turns (s : State) (w : Encoded) (a : Answer) (e : Env) : (s.emit w a e).turns = s.turns := by
  cases w <;> rfl
@[simp] theorem State.emit_held (s : State) (w : Encoded) (a : Answer) (e : Env) : (s.emit w a e).held = s.held := by
  cases w <;> rfl
@[simp] theorem State.emit_reads (s : State) (w : Encoded) (a : Answer) (e : Env) : (s.emit w a e).reads = s.reads := by
  cases w <;> rfl
@[simp] theorem State.emit_env (s : State) (w : Encoded) (a : Answer) (e : Env) : (s.emit w a e).env = e := by
  cases w <;> rfl
@[simp] theorem State.emit_trace (s : State) (u : MicroWord) (a : Answer) (e : Env) :
    (s.emit (.microOp u) a e).trace = s.trace ++ [⟨u, a⟩] := rfl

@[simp] theorem State.resetInput_block (s : State) : s.resetInput.block = s.block.resetControl := rfl
@[simp] theorem State.resetInput_cfg (s : State) : s.resetInput.cfg = s.cfg := rfl
@[simp] theorem State.resetInput_turns (s : State) : s.resetInput.turns = s.turns := rfl
@[simp] theorem State.resetInput_held (s : State) : s.resetInput.held = none := rfl
@[simp] theorem State.resetInput_reads (s : State) : s.resetInput.reads = s.reads := rfl
@[simp] theorem State.resetInput_trace (s : State) : s.resetInput.trace = [] := rfl
@[simp] theorem State.resetInput_env (s : State) : s.resetInput.env = s.env := rfl

/-! `Env.setAddr` -/

@[simp] theorem Env.setAddr_mode (e : Env) (p : Byte) : (e.setAddr p).mode = e.mode := by
  unfold Env.setAddr; split <;> rfl
@[simp] theorem Env.setAddr_draws (e : Env) (p : Byte) : (e.setAddr p).draws = e.draws := by
  unfold Env.setAddr; split <;> rfl
@[simp] theorem Env.setAddr_mdr (e : Env) (p : Byte) : (e.setAddr p).mdr = e.mdr := by
  unfold Env.setAddr; split <;> rfl
@[simp] theorem Env.setAddr_opn (e : Env) (p : Byte) : (e.setAddr p).opn = e.opn := by
  unfold Env.setAddr; split <;> rfl
@[simp] theorem Env.setAddr_busyn (e : Env) (p : Byte) : (e.setAddr p).busyn = e.busyn := by
  unfold Env.setAddr; split <;> rfl
@[simp] theorem Env.setAddr_devAddr (e : Env) (p : Byte) : (e.setAddr p).devAddr = e.devAddr := by
  unfold Env.setAddr; split <;> rfl
@[simp] theorem Env.setAddr_slv (e : Env) (p : Byte) : (e.setAddr p).slv = e.slv := by
  unfold Env.setAddr; split <;> rfl
@[simp] theorem Env.setAddr_ptr (e : Env) (p : Byte) : (e.setAddr p).ptr = e.ptr := by
  unfold Env.setAddr; split <;> rfl
@[simp] theorem Env.setAddr_wire (e : Env) (p : Byte) : (e.setAddr p).wire = e.wire := by
  unfold Env.setAddr; split <;> rfl

/-! `Env.put` -/

@[simp] theorem Env.put_mode (e : Env) (x : Byte) : (e.put x).mode = e.mode := by
  unfold Env.put; split <;> rfl
@[simp] theorem Env.put_draws (e : Env) (x : Byte) : (e.put x).draws = e.draws := by
  unfold Env.put; split <;> rfl
@[simp] theorem Env.put_msa (e : Env) (x : Byte) : (e.put x).msa = e.msa := by
  unfold Env.put; split <;> rfl
@[simp] theorem Env.put_opn (e : Env) (x : Byte) : (e.put x).opn = e.opn := by
  unfold Env.put; split <;> rfl
@[simp] theorem Env.put_busyn (e : Env) (x : Byte) : (e.put x).busyn = e.busyn := by
  unfold Env.put; split <;> rfl
@[simp] theorem Env.put_devAddr (e : Env) (x : Byte) : (e.put x).devAddr = e.devAddr := by
  unfold Env.put; split <;> rfl
@[simp] theorem Env.put_slv (e : Env) (x : Byte) : (e.put x).slv = e.slv := by
  unfold Env.put; split <;> rfl
@[simp] theorem Env.put_ptr (e : Env) (x : Byte) : (e.put x).ptr = e.ptr := by
  unfold Env.put; split <;> rfl
@[simp] theorem Env.put_wire (e : Env) (x : Byte) : (e.put x).wire = e.wire := by
  unfold Env.put; split <;> rfl

/-! `Env.afterPoll` -/

@[simp] theorem Env.afterPoll_mode (e : Env) : (e.afterPoll).mode = e.mode := by
  unfold Env.afterPoll; split <;> rfl
@[simp] theorem Env.afterPoll_msa (e : Env) : (e.afterPoll).msa = e.msa := by
  unfold Env.afterPoll; split <;> rfl
@[simp] theorem Env.afterPoll_mdr (e : Env) : (e.afterPoll).mdr = e.mdr := by
  unfold Env.afterPoll; split <;> rfl
@[simp] theorem Env.afterPoll_opn (e : Env) : (e.afterPoll).opn = e.opn := by
  unfold Env.afterPoll; split <;> rfl
@[simp] theorem Env.afterPoll_devAddr (e : Env) : (e.afterPoll).devAddr = e.devAddr := by
  unfold Env.afterPoll; split <;> rfl
@[simp] theorem Env.afterPoll_slv (e : Env) : (e.afterPoll).slv = e.slv := by
  unfold Env.afterPoll; split <;> rfl
@[simp] theorem Env.afterPoll_ptr (e : Env) : (e.afterPoll).ptr = e.ptr := by
  unfold Env.afterPoll; split <;> rfl
@[simp] theorem Env.afterPoll_wire (e : Env) : (e.afterPoll).wire = e.wire := by
  unfold Env.afterPoll; split <;> rfl

/-! `Env.afterGet` -/

@[simp] theorem Env.afterGet_mode (e : Env) : (e.afterGet).mode = e.mode := by
  unfold Env.afterGet; split <;> rfl
@[simp] theorem Env.afterGet_msa (e : Env) : (e.afterGet).msa = e.msa := by
  unfold Env.afterGet; split <;> rfl
@[simp] theorem Env.afterGet_mdr (e : Env) : (e.afterGet).mdr = e.mdr := by
  unfold Env.afterGet; split <;> rfl
@[simp] theorem Env.afterGet_opn (e : Env) : (e.afterGet).opn = e.opn := by
  unfold Env.afterGet; split <;> rfl
@[simp] theorem Env.afterGet_busyn (e : Env) : (e.afterGet).busyn = e.busyn := by
  unfold Env.afterGet; split <;> rfl
@[simp] theorem Env.afterGet_devAddr (e : Env) : (e.afterGet).devAddr = e.devAddr := by
  unfold Env.afterGet; split <;> rfl
@[simp] theorem Env.afterGet_slv (e : Env) : (e.afterGet).slv = e.slv := by
  unfold Env.afterGet; split <;> rfl
@[simp] theorem Env.afterGet_ptr (e : Env) : (e.afterGet).ptr = e.ptr := by
  unfold Env.afterGet; split <;> rfl
@[simp] theorem Env.afterGet_wire (e : Env) : (e.afterGet).wire = e.wire := by
  unfold Env.afterGet; split <;> rfl

/-! `Env.drawBusyn` -/

@[simp] theorem Env.drawBusyn_mode (e : Env) : (e.drawBusyn).mode = e.mode := rfl
@[simp] theorem Env.drawBusyn_msa (e : Env) : (e.drawBusyn).msa = e.msa := rfl
@[simp] theorem Env.drawBusyn_mdr (e : Env) : (e.drawBusyn).mdr = e.mdr := rfl
@[simp] theorem Env.drawBusyn_opn (e : Env) : (e.drawBusyn).opn = e.opn := rfl
@[simp] theorem Env.drawBusyn_devAddr (e : Env) : (e.drawBusyn).devAddr = e.devAddr := rfl
@[simp] theorem Env.drawBusyn_slv (e : Env) : (e.drawBusyn).slv = e.slv := rfl
@[simp] theorem Env.drawBusyn_ptr (e : Env) : (e.drawBusyn).ptr = e.ptr := rfl
@[simp] theorem Env.drawBusyn_wire (e : Env) : (e.drawBusyn).wire = e.wire := rfl

/-! `Env.slaveWrite` -/

@[simp] theorem Env.slaveWrite_mode (e : Env) (sa : SlaveAddr) (l : List Byte) : (e.slaveWrite sa l).mode = e.mode := rfl
@[simp] theorem Env.slaveWrite_draws (e : Env) (sa : SlaveAddr) (l : List Byte) : (e.slaveWrite sa l).draws = e.draws := rfl
@[simp] theorem Env.slaveWrite_msa (e : Env) (sa : SlaveAddr) (l : List Byte) : (e.slaveWrite sa l).msa = e.msa := rfl
@[simp] theorem Env.slaveWrite_mdr (e : Env) (sa : SlaveAddr) (l : List Byte) : (e.slaveWrite sa l).mdr = e.mdr := rfl
@[simp] theorem Env.slaveWrite_opn (e : Env) (sa : SlaveAddr) (l : List Byte) : (e.slaveWrite sa l).opn = e.opn := rfl
@[simp] theorem Env.slaveWrite_busyn (e : Env) (sa : SlaveAddr) (l : List Byte) : (e.slaveWrite sa l).busyn = e.busyn := rfl
@[simp] theorem Env.slaveWrite_devAddr (e : Env) (sa : SlaveAddr) (l : List Byte) : (e.slaveWrite sa l).devAddr = e.devAddr := rfl
@[simp] theorem Env.slaveWrite_wire (e : Env) (sa : SlaveAddr) (l : List Byte) : (e.slaveWrite sa l).wire = e.wire := rfl


end Sys2Proof.Machine
end

