-- ==== Sys2Proof/Laws/Ops.lean ====
section
/-! SUPPORT. One lemma for each shared operation that says once everything it can do, for proofs to cite in place of
unfolding it. -/

namespace Sys2Proof.Machine

/-! ### Decoding -/

theorem requireZero_ok {z : Bool} {i j : Instr} (h : requireZero z i = .ok j) : z = true ∧ i = j := by
  unfold requireZero at h
  split at h
  · next hz => cases h; exact ⟨hz, rfl⟩
  · cases h

/-- Whatever `decodeCommand` accepts is a command. -/
theorem decodeCommand_isCommand {w : Word} {i : Instr} (h : decodeCommand w = .ok i) : i.isCommand = true := by
  unfold decodeCommand at h
  split at h
  all_goals first
    | (obtain ⟨-, rfl⟩ := requireZero_ok h; rfl)
    | cases h

/-! ### Meanings of commands -/

/-- A command answers a next state, and changes the block alone. -/
theorem exec_command {i : Instr} (hi : i.isCommand = true) (s : State) : ∃ b, exec i s = .next (s.withBlock b) := by
  cases i with
  | recvb sa ra => exact ⟨_, rfl⟩
  | sendb sa ra d => exact ⟨_, rfl⟩
  | dec ra d => simp only [exec, execDec]; split <;> exact ⟨_, rfl⟩
  | enc ra => simp only [exec, execEnc]; split <;> exact ⟨_, rfl⟩
  | rdreg ra => simp only [exec, execRdreg]; split <;> exact ⟨_, rfl⟩
  | wrreg ra => simp only [exec, execWrreg]; split <;> exact ⟨_, rfl⟩
  | rdpair ra => simp only [exec, execRdpair]; split <;> exact ⟨_, rfl⟩
  | rdarr ra idx =>
    simp only [exec, execRdarr]; split
    · exact ⟨_, rfl⟩
    · split <;> exact ⟨_, rfl⟩
  | wrarr ra idx d =>
    simp only [exec, execWrarr]; split
    · exact ⟨_, rfl⟩
    · split <;> exact ⟨_, rfl⟩
  | rdbank ra => simp only [exec, execRdbank]; split <;> exact ⟨_, rfl⟩
  | wrbank ra => simp only [exec, execWrbank]; split <;> exact ⟨_, rfl⟩
  | setaddr _ _ => cases hi
  | put _ => cases hi
  | ctrlBurstStart => cases hi
  | ctrlBurstFinish => cases hi
  | ctrlSingle => cases hi
  | poll => cases hi
  | get => cases hi

/-- A host write that transfers answers a next state, and changes the block alone. -/
theorem hostWrite_withBlock (n : Nat) (w : Word) (s : State) : ∃ b, hostWrite n w s = .next (s.withBlock b) := by
  unfold hostWrite
  split
  · split
    · next i hi => exact exec_command (decodeCommand_isCommand hi) s
    · exact ⟨_, rfl⟩
  · exact ⟨_, rfl⟩

/-! ### Meanings of micro-operations -/

theorem emitCtrl_next {c : Ctrl} {w : Encoded} {s t : State} (h : emitCtrl c w s = .next t) :
    ∃ e, s.env.ctrl c = some e ∧ t = (s.emit w .nothing e).withBlock s.block.nextPhase := by
  unfold emitCtrl at h
  split at h
  · cases h
  · next e he => cases h; exact ⟨e, he, rfl⟩

/-- A micro-operation that answers a next state emits its word once and changes the block, the environment and the
trace alone. -/
theorem exec_microOp {i : Instr} (hi : i.isCommand = false) {s t : State} (h : exec i s = .next t) :
    ∃ a e b, t = (s.emit (encode i) a e).withBlock b := by
  cases i with
  | setaddr sa dir => cases h; exact ⟨_, _, _, rfl⟩
  | put b => cases h; exact ⟨_, _, _, rfl⟩
  | ctrlBurstStart => obtain ⟨e, -, rfl⟩ := emitCtrl_next h; exact ⟨_, _, _, rfl⟩
  | ctrlBurstFinish => obtain ⟨e, -, rfl⟩ := emitCtrl_next h; exact ⟨_, _, _, rfl⟩
  | ctrlSingle => obtain ⟨e, -, rfl⟩ := emitCtrl_next h; exact ⟨_, _, _, rfl⟩
  | poll => cases h; exact ⟨_, _, _, rfl⟩
  | get => cases h; exact ⟨_, _, _, rfl⟩
  | recvb _ _ => cases hi
  | sendb _ _ _ => cases hi
  | dec _ _ => cases hi
  | enc _ => cases hi
  | rdreg _ => cases hi
  | wrreg _ => cases hi
  | rdpair _ => cases hi
  | rdarr _ _ => cases hi
  | wrarr _ _ _ => cases hi
  | rdbank _ => cases hi
  | wrbank _ => cases hi

/-- The sequencer emits micro-operations only. -/
theorem currentOp_microOp {c : Config} {b : Block} {i : Instr} (h : currentOp c b = some i) : i.isCommand = false := by
  unfold currentOp at h
  split at h
  · cases h
    unfold receiveOp
    split <;> try rfl
    unfold ctrlInstr
    split <;> rfl
  · unfold sendOp at h
    split at h <;> cases h <;> rfl

/-! ### The step -/

theorem sequencerTurn_cases {s t : State} (h : sequencerTurn s = .next t) :
    (s.block.busy = true ∧ ∃ i, currentOp s.cfg s.block = some i ∧ exec i s = .next t) ∨
      (s.block.busy = false ∧ t = s) := by
  unfold sequencerTurn at h
  split at h
  · next hb =>
    unfold sequencerStep at h
    split at h
    · next i hi => exact .inl ⟨hb, i, hi, h⟩
    · cases h
  · next hb => cases h; exact .inr ⟨by simpa using hb, rfl⟩

/-- Everything a step can be: a held write transfers; the sequencer emits one micro-operation; nothing happens because
the sequencer has no step; or the host makes the move at the head of the turns (while a write is held, only the reset).
-/
theorem step_cases {s t : State} (h : step s = .next t) :
    (∃ w, s.held = some w ∧ s.block.busy = false ∧ hostWrite w.num w.word { s with held := none } = .next t) ∨
    (∃ rest i, s.block.busy = true ∧ currentOp s.cfg s.block = some i ∧ exec i { s with turns := rest } = .next t) ∨
    (∃ rest, s.block.busy = false ∧ t = { s with turns := rest }) ∨
    (∃ m rest, s.turns = .host m :: rest ∧ (s.held = none ∨ (m = .reset ∧ s.block.busy = true)) ∧
      hostMove m { s with turns := rest } = .next t) := by
  have seq (rest : List Turn) (h : sequencerTurn { s with turns := rest } = .next t) :
      (∃ rest i, s.block.busy = true ∧ currentOp s.cfg s.block = some i ∧ exec i { s with turns := rest } = .next t) ∨
      (∃ rest, s.block.busy = false ∧ t = { s with turns := rest }) := by
    obtain ⟨hb, i, hi, he⟩ | ⟨hb, rfl⟩ := sequencerTurn_cases h
    · exact .inl ⟨rest, i, hb, hi, he⟩
    · exact .inr ⟨rest, hb, rfl⟩
  have place {A B C D : Prop} (x : B ∨ C) : A ∨ B ∨ C ∨ D := x.elim (fun y => .inr (.inl y)) fun y => .inr (.inr (.inl y))
  unfold step nextStep at h
  split at h
  · next w hw =>
    split at h
    · next hb =>
      unfold takeTurnHeld at h
      split at h
      · next rest ht => exact .inr (.inr (.inr ⟨.reset, rest, ht, .inr ⟨rfl, hb⟩, h⟩))
      · next rest ht => exact place (seq rest h)
      · exact place (seq s.turns h)
    · next hb => exact .inl ⟨w, hw, by simpa using hb, h⟩
  · next hh =>
    unfold takeTurn at h
    split at h
    · exact place (seq s.turns h)
    · next rest ht => exact place (seq rest h)
    · next m rest ht => exact .inr (.inr (.inr ⟨m, rest, ht, .inl hh, h⟩))

/-! ### Register files -/

/-- Storing a list from entry `i` on puts entry `k - i` of the list at `k`, and leaves the others. -/
theorem storeFrom_getElem? {n : Nat} (l : List Byte) (f : Vector Byte n) (i k : Nat) (hk : k < n) :
    (storeFrom i l f)[k]? = if i ≤ k ∧ k < i + l.length then l[k - i]? else f[k]? := by
  induction l generalizing f i with
  | nil =>
    simp only [storeFrom, List.length_nil, Nat.add_zero]
    rw [if_neg (by omega)]
  | cons x xs ih =>
    simp only [storeFrom, ih, List.length_cons]
    by_cases h1 : i + 1 ≤ k ∧ k < i + 1 + xs.length
    · rw [if_pos h1, if_pos (by omega)]
      obtain ⟨j, rfl⟩ : ∃ j, k = i + 1 + j := ⟨k - (i + 1), by omega⟩
      have e1 : i + 1 + j - (i + 1) = j := by omega
      have e2 : i + 1 + j - i = j + 1 := by omega
      rw [e1, e2, List.getElem?_cons_succ]
    · rw [if_neg h1, Vector.getElem?_setIfInBounds]
      by_cases h2 : i = k
      · subst h2
        simp [hk]
      · rw [if_neg h2, if_neg (by omega)]

/-! ### The reference controller keeps the mode, the device address and the canonical form of the device memory -/

theorem Env.closeOpen_keeps (e : Env) : e.closeOpen.mode = e.mode ∧ e.closeOpen.devAddr = e.devAddr ∧
    e.closeOpen.msa = e.msa ∧ (e.slv.wf = true → e.closeOpen.slv.wf = true) := by
  unfold Env.closeOpen
  split
  · exact ⟨rfl, rfl, rfl, Env.slaveWrite_slv_wf _ _ _⟩
  · exact ⟨rfl, rfl, rfl, id⟩

theorem Env.ctrl_keeps {e e' : Env} {c : Ctrl} (h : e.ctrl c = some e') : e'.mode = e.mode ∧ e'.devAddr = e.devAddr ∧
    e'.msa = e.msa ∧ (e.slv.wf = true → e'.slv.wf = true) := by
  unfold Env.ctrl at h
  split at h
  · cases h; exact ⟨rfl, rfl, rfl, id⟩
  · split at h
    · unfold Env.refBurstStart at h
      split at h
      · cases h; exact ⟨rfl, rfl, rfl, id⟩
      · cases h
    · unfold Env.refBurstFinish at h
      split at h
      · cases h; exact ⟨rfl, rfl, rfl, fun hw => Env.slaveWrite_slv_wf _ _ _ hw⟩
      · cases h
    · unfold Env.refSingle at h
      split at h
      · cases h; exact ⟨rfl, rfl, rfl, fun hw => Env.slaveWrite_slv_wf _ _ _ hw⟩
      · cases h
        obtain ⟨h1, h2, h3, h4⟩ := Env.closeOpen_keeps e.drawBusyn
        exact ⟨h1, h2, h3, h4⟩

end Sys2Proof.Machine
end

