-- ==== Sys2Proof/Laws/PerInstr.lean ====
section
/-! SUPPORT. Statements made per instruction, one lemma per constructor of `Instr`. `MatchesPattern`: the words of an
instruction carry the fixed bits of its row, `(w & mask) == match` (30_encoding.md R85, R95). The masks and match values
are copied from the tables of those rules. -/

namespace Sys2Proof.Laws.MatchesPattern

/-- A 32-bit word carries the fixed bits. -/
def commandFits (mask pat : Word) : Encoded → Prop
  | .command w => w &&& mask = pat
  | .microOp _ => False

/-- An 11-bit micro-operation word carries the fixed bits. -/
def microFits (mask pat : MicroWord) : Encoded → Prop
  | .command _ => False
  | .microOp u => u &&& mask = pat

/-- R85, R95: the row of each instruction. -/
def Statement (i : Instr) : Prop :=
  match i with
  | .recvb _ _ => commandFits 0xFF8000FF#32 0x10000000#32 (encode i)
  | .sendb _ _ _ => commandFits 0xFF800000#32 0x20000000#32 (encode i)
  | .dec _ _ => commandFits 0xFFFF0000#32 0x30000000#32 (encode i)
  | .enc _ => commandFits 0xFFFF00FF#32 0x40000000#32 (encode i)
  | .rdreg _ => commandFits 0xFFFF00FF#32 0x50000000#32 (encode i)
  | .wrreg _ => commandFits 0xFFFF00FF#32 0x60000000#32 (encode i)
  | .rdpair _ => commandFits 0xFFFF00FF#32 0x70000000#32 (encode i)
  | .rdarr _ _ => commandFits 0xFF0000FF#32 0x80000000#32 (encode i)
  | .wrarr _ _ _ => commandFits 0xFF000000#32 0x90000000#32 (encode i)
  | .rdbank _ => commandFits 0xFFFF00FF#32 0xA0000000#32 (encode i)
  | .wrbank _ => commandFits 0xFFFF00FF#32 0xB0000000#32 (encode i)
  | .setaddr _ _ => microFits 0x700#11 0x000#11 (encode i)
  | .put _ => microFits 0x700#11 0x100#11 (encode i)
  | .ctrlBurstStart => microFits 0x7FF#11 0x203#11 (encode i)
  | .ctrlBurstFinish => microFits 0x7FF#11 0x205#11 (encode i)
  | .ctrlSingle => microFits 0x7FF#11 0x207#11 (encode i)
  | .poll => microFits 0x7FF#11 0x300#11 (encode i)
  | .get => microFits 0x7FF#11 0x400#11 (encode i)

theorem recvb (sa : SlaveAddr) (ra : Byte) : Statement (.recvb sa ra) := by
  show _ &&& _ = _
  apply BitVec.eq_of_getLsbD_eq
  intro k hk
  interval_cases k <;> simp only [formatT, BitVec.getLsbD_append, BitVec.getLsbD_and] <;> simp

theorem sendb (sa : SlaveAddr) (ra : Byte) (d : Byte) : Statement (.sendb sa ra d) := by
  show _ &&& _ = _
  apply BitVec.eq_of_getLsbD_eq
  intro k hk
  interval_cases k <;> simp only [formatT, BitVec.getLsbD_append, BitVec.getLsbD_and] <;> simp

theorem dec (ra : Byte) (d : Byte) : Statement (.dec ra d) := by
  show _ &&& _ = _
  apply BitVec.eq_of_getLsbD_eq
  intro k hk
  interval_cases k <;> simp only [formatR, BitVec.getLsbD_append, BitVec.getLsbD_and] <;> simp

theorem enc (ra : Byte) : Statement (.enc ra) := by
  show _ &&& _ = _
  apply BitVec.eq_of_getLsbD_eq
  intro k hk
  interval_cases k <;> simp only [formatR, BitVec.getLsbD_append, BitVec.getLsbD_and] <;> simp

theorem rdreg (ra : Byte) : Statement (.rdreg ra) := by
  show _ &&& _ = _
  apply BitVec.eq_of_getLsbD_eq
  intro k hk
  interval_cases k <;> simp only [formatR, BitVec.getLsbD_append, BitVec.getLsbD_and] <;> simp

theorem wrreg (ra : Byte) : Statement (.wrreg ra) := by
  show _ &&& _ = _
  apply BitVec.eq_of_getLsbD_eq
  intro k hk
  interval_cases k <;> simp only [formatR, BitVec.getLsbD_append, BitVec.getLsbD_and] <;> simp

theorem rdpair (ra : Byte) : Statement (.rdpair ra) := by
  show _ &&& _ = _
  apply BitVec.eq_of_getLsbD_eq
  intro k hk
  interval_cases k <;> simp only [formatR, BitVec.getLsbD_append, BitVec.getLsbD_and] <;> simp

theorem rdarr (ra : Byte) (idx : Byte) : Statement (.rdarr ra idx) := by
  show _ &&& _ = _
  apply BitVec.eq_of_getLsbD_eq
  intro k hk
  interval_cases k <;> simp only [formatR, BitVec.getLsbD_append, BitVec.getLsbD_and] <;> simp

theorem wrarr (ra : Byte) (idx : Byte) (d : Byte) : Statement (.wrarr ra idx d) := by
  show _ &&& _ = _
  apply BitVec.eq_of_getLsbD_eq
  intro k hk
  interval_cases k <;> simp only [formatR, BitVec.getLsbD_append, BitVec.getLsbD_and] <;> simp

theorem rdbank (ra : Byte) : Statement (.rdbank ra) := by
  show _ &&& _ = _
  apply BitVec.eq_of_getLsbD_eq
  intro k hk
  interval_cases k <;> simp only [formatR, BitVec.getLsbD_append, BitVec.getLsbD_and] <;> simp

theorem wrbank (ra : Byte) : Statement (.wrbank ra) := by
  show _ &&& _ = _
  apply BitVec.eq_of_getLsbD_eq
  intro k hk
  interval_cases k <;> simp only [formatR, BitVec.getLsbD_append, BitVec.getLsbD_and] <;> simp

theorem setaddr (sa : SlaveAddr) (dir : Dir) : Statement (.setaddr sa dir) := by
  show _ &&& _ = _
  revert sa
  cases dir <;> decide

theorem put (b : Byte) : Statement (.put b) := by
  show _ &&& _ = _
  revert b
  decide

theorem ctrlBurstStart : Statement .ctrlBurstStart := by
  show _ &&& _ = _
  decide

theorem ctrlBurstFinish : Statement .ctrlBurstFinish := by
  show _ &&& _ = _
  decide

theorem ctrlSingle : Statement .ctrlSingle := by
  show _ &&& _ = _
  decide

theorem poll : Statement .poll := by
  show _ &&& _ = _
  decide

theorem get : Statement .get := by
  show _ &&& _ = _
  decide

end Sys2Proof.Laws.MatchesPattern
end

