-- ==== Sys2Proof/Laws/Premises.lean ====
section
/-! SUPPORT. Induction along a run, said once, and that the reference environment meets the two premises of 40_bus_port.md
R120. -/

namespace Sys2Proof.Machine

/-- What every step keeps holds in every state of a run. -/
theorem run_keeps {P : State → Prop} (hstep : ∀ s t, P s → step s = .next t → P t) {n : Nat} {s t : State} (hs : P s)
    (h : run n s = .next t) : P t := by
  induction n generalizing s with
  | zero => cases h; exact hs
  | succ n ih =>
    simp only [run] at h
    split at h
    · next u hu => exact ih (hstep s u hs hu) h
    · cases h
    · cases h

/-- A micro-operation leaves the kind of the environment. -/
theorem exec_microOp_mode {i : Instr} (hi : i.isCommand = false) {s t : State} (h : exec i s = .next t) :
    t.env.mode = s.env.mode := by
  cases i with
  | setaddr sa dir => cases h; simp
  | put b => cases h; simp
  | ctrlBurstStart => obtain ⟨e, he, rfl⟩ := emitCtrl_next h; simpa using (Env.ctrl_keeps he).1
  | ctrlBurstFinish => obtain ⟨e, he, rfl⟩ := emitCtrl_next h; simpa using (Env.ctrl_keeps he).1
  | ctrlSingle => obtain ⟨e, he, rfl⟩ := emitCtrl_next h; simpa using (Env.ctrl_keeps he).1
  | poll => cases h; simp
  | get => cases h; simp
  | recvb _ _ => cases hi
  | sendb _ _ _ => cases hi
  | dec _ _ => cases hi
  | enc _ => cases hi
  | rdreg _ => cases hi
  | wrreg _ => cases hi
  | rdpair _ => cases hi
  | rdarr _ _ => cases hi
  | wrarr _ _ _ => cases hi
  | rdbank _ => cases hi
  | wrbank _ => cases hi

/-- A step leaves the kind of the environment. -/
theorem step_mode {s t : State} (h : step s = .next t) : t.env.mode = s.env.mode := by
  obtain ⟨w, -, -, h⟩ | ⟨rest, i, -, hi, h⟩ | ⟨rest, -, rfl⟩ | ⟨m, rest, -, -, h⟩ := step_cases h
  · obtain ⟨b, hb⟩ := hostWrite_withBlock w.num w.word { s with held := none }
    cases hb.symm.trans h; rfl
  · have hm := exec_microOp_mode (currentOp_microOp hi) h
    exact hm
  · rfl
  · cases m with
    | write n w =>
      simp only [hostMove] at h
      split at h
      · cases h; rfl
      · obtain ⟨b, hb⟩ := hostWrite_withBlock n w { s with turns := rest }
        cases hb.symm.trans h; rfl
    | read n => cases h; rfl
    | wait => cases h; rfl
    | reset => cases h; rfl

/-! ### The reference environment meets both premises (R121) -/

/-- `BUSYN` counts down, so a wait ends after as many `POLL`s as it says. -/
theorem Env.waitEnds_of_reference {e : Env} (h : e.mode = .reference) : e.waitEnds := by
  have count (n : Nat) : ∀ e : Env, e.mode = .reference → e.busyn = n → (e.afterPolls n).busyAnswer = false := by
    induction n with
    | zero => intro e hm hn; simp [Env.afterPolls, Env.busyAnswer, hm, hn]
    | succ n ih => intro e hm hn; exact ih e.afterPoll (by simpa using hm) (by simp [Env.afterPoll, hm, hn])
  exact ⟨e.busyn, count e.busyn e h rfl⟩

/-- `BC_LIVE` holds of every run in the reference environment. -/
theorem State.bcLive_of_reference {s : State} (h : s.env.mode = .reference) : s.BcLive := fun _ _ hr _ _ =>
  Env.waitEnds_of_reference (run_keeps (P := fun s => s.env.mode = .reference) (fun _ _ hs hst => (step_mode hst).trans hs)
    h hr)

/-- `BC_BUSY_VALID` holds of every run in the reference environment: a `CTRL` sets `BUSYN` in its own step. -/
theorem State.bcBusyValid_of_reference {s : State} (h : s.env.mode = .reference) :
    s.BcBusyValid Env.referenceAtWork := fun _ _ _ _ hr _ _ hc ha => by
  have hm := run_keeps (P := fun s => s.env.mode = .reference) (fun _ _ hs hst => (step_mode hst).trans hs) h hr
  rw [Env.busyAnswer, (Env.ctrl_keeps hc).1, hm]
  exact ha

end Sys2Proof.Machine
end

