-- ==== Sys2Proof/Laws/Sequencer.lean ====
section
/-! SUPPORT. The small lemmas of table lookup, of the list of transactions of a command, and of what a command collects
and how a transaction starts and ends. -/

namespace Sys2Proof.Machine

/-! ### Well-formed parameters and table lookup -/

/-- What well-formed parameters are, condition by condition. -/
theorem Config.wf_conditions {c : Config} (h : c.wf = true) :
    (∀ e ∈ c.regtab, fieldsWf e.fields = true) ∧ (∀ e ∈ c.arrtab, e.wf = true) ∧ (∀ e ∈ c.pairtab, e.wf = true) ∧
      c.recvWriteCtrl ≠ .burstFinish := by
  simp only [Config.wf, Config.check, beq_iff_eq] at h
  repeat (split at h; · simp at h)
  rename_i h1 h2 h3 h4 h5 h6 h7
  simp only [Bool.not_eq_true, Bool.not_eq_false', List.all_eq_true] at h1 h2 h3 h4 h5 h7
  refine ⟨fun e he => ?_, h4, h5, by simpa [Config.recvWriteCtrlLegal] using h7⟩
  simp only [fieldsWf, Bool.and_eq_true, List.all_eq_true]
  exact ⟨⟨h1 e he, h2 e he⟩, h3 e he⟩

theorem arrayOf_base {c : Config} {ra : Byte} {e : ArrEntry} (h : arrayOf c ra = some e) : e.base = ra := by
  simpa using List.find?_some h

theorem pairOf_addrH {c : Config} {ra : Byte} {p : PairEntry} (h : pairOf c ra = some p) : p.addrH = ra := by
  simpa using List.find?_some h

/-- A register found in well-formed tables has a well-formed field list. -/
theorem fieldsOf_wf {c : Config} (hw : c.wf = true) {ra : Byte} {fs : List Field} (h : fieldsOf c ra = some fs) :
    fieldsWf fs = true := by
  simp only [fieldsOf, Option.map_eq_some_iff] at h
  obtain ⟨e, he, rfl⟩ := h
  exact (Config.wf_conditions hw).1 e (List.mem_of_find?_eq_some he)

/-- An array found in well-formed tables has 1 to 24 elements, the last at an address of at most 0xFF. -/
theorem arrayOf_wf {c : Config} (hw : c.wf = true) {ra : Byte} {e : ArrEntry} (h : arrayOf c ra = some e) :
    1 ≤ e.count ∧ e.count ≤ 24 ∧ ra.toNat + e.count ≤ 256 := by
  have h1 := (Config.wf_conditions hw).2.1 e (List.mem_of_find?_eq_some h)
  rw [← arrayOf_base h]
  have h2 := of_decide_eq_true h1
  simp only [Config.bufLen] at h2
  omega

/-- R86: an element's address does not wrap. -/
theorem elementAddr_toNat {c : Config} (hw : c.wf = true) {ra : Byte} {e : ArrEntry} (h : arrayOf c ra = some e)
    {k : Nat} (hk : k < e.count) : (elementAddr ra k).toNat = ra.toNat + k := by
  have := arrayOf_wf hw h
  simp only [elementAddr, BitVec.toNat_ofNat]
  omega

theorem elementAddr_zero (ra : Byte) : elementAddr ra 0 = ra := by
  simp [elementAddr]

/-! ### The transactions of a command (R182) -/

/-- They depend on the view and the buffer alone. -/
theorem transactionsOf_congr (c : Config) (i : Instr) {b b' : Block} (hv : b.v = b'.v) (hb : b.buf = b'.buf) :
    transactionsOf c b i = transactionsOf c b' i := by
  cases i with
  | wrreg ra => simp [transactionsOf, wrregTransactions, wrregByte, Block.view, hv]
  | wrbank ra => simp [transactionsOf, wrbankTransactions, Block.bufAt, hb]
  | _ => rfl

/-- R28: at most 24 with well-formed parameters. -/
theorem transactionsOf_length_le {c : Config} (hw : c.wf = true) (b : Block) (i : Instr) :
    (transactionsOf c b i).length ≤ 24 := by
  cases i with
  | wrreg ra => simp only [transactionsOf, wrregTransactions]; split <;> simp
  | rdpair ra => simp only [transactionsOf, rdpairTransactions]; split <;> simp
  | rdbank ra =>
    simp only [transactionsOf, rdbankTransactions]; split
    · simp
    · next h => simpa using (arrayOf_wf hw h).2.1
  | wrbank ra =>
    simp only [transactionsOf, wrbankTransactions]; split
    · simp
    · next h => simpa using (arrayOf_wf hw h).2.1
  | _ => simp [transactionsOf, recvbTransactions, sendbTransactions, rdregTransactions, rdarrTransactions,
      wrarrTransactions]

/-! ### Collecting, starting and ending a transaction -/

/-- What no command's "transaction `EC` has ended" touches. -/
theorem collect_keeps (c : Config) (i : Instr) (b : Block) :
    (collect c i b).rd = b.rd ∧ (collect c i b).cw = b.cw ∧ (collect c i b).busy = b.busy ∧
      (collect c i b).done = b.done ∧ (collect c i b).err = b.err ∧ (collect c i b).ec = b.ec ∧
      (collect c i b).ph = b.ph ∧ (collect c i b).twd = b.twd := by
  cases i with
  | rdreg ra => simp only [collect, rdregCollect]; split <;> and_intros <;> rfl
  | rdpair ra => simp only [collect, rdpairCollect]; split <;> and_intros <;> rfl
  | _ => and_intros <;> rfl

/-- A command does not collect into what its own transactions are made of. -/
theorem transactionsOf_collect (c : Config) (i : Instr) (b : Block) :
    transactionsOf c (collect c i b) i = transactionsOf c b i := by
  cases i <;> rfl

/-- R131: the latches of a transaction that has started hold it. -/
theorem Block.start_holds (b : Block) (t : Transaction) : (b.start t).holds t = true := by
  cases t <;> simp [Block.start, Block.holds]

/-- Advancing to the next transaction or ending the command leaves every data register alone and puts `PH` at 0. -/
theorem Block.advance_keeps (b : Block) (o : Option Transaction) :
    (b.advance o).v = b.v ∧ (b.advance o).rd = b.rd ∧ (b.advance o).rw = b.rw ∧ (b.advance o).buf = b.buf ∧
      (b.advance o).hi = b.hi ∧ (b.advance o).cw = b.cw ∧ (b.advance o).err = b.err ∧ (b.advance o).ph = 0#3 := by
  rcases o with _ | t
  · and_intros <;> rfl
  · cases t <;> and_intros <;> rfl

/-- The end of a transaction of the command in `CW`, in one line. -/
theorem endTransaction_command {c : Config} {b : Block} {i : Instr} (h : decodeCommand b.cw = .ok i) :
    endTransaction c b = (collect c i b).advance ((transactionsOf c b i)[b.ec.toNat + 1]?) := by
  simp only [endTransaction, h, transactionsOf_collect]

end Sys2Proof.Machine
end

