-- ==== Sys2Proof/Tests/Slice0.lean ====
section
/-! SUPPORT. The model's own tests: the well-formedness checks refuse ill-formed parameters; words written out from
30_encoding.md decode to the instructions they stand for; one step of each instruction against the vectors of
95_test_vectors.md (named by their ids); and, for every obligation with hypotheses, a witness that meets them. -/

namespace Sys2Proof.Tests
open Sys2Proof Sys2Proof.Machine

/-! ### Small states -/

/-- An idle block whose registers all hold something that no test expects. -/
def idleBlock : Block where
  v := Vector.replicate 8 0x09#8
  rd := 0xEE#8
  rw := 0xBEEF#16
  buf := Vector.replicate 24 0x44#8
  cw := 0#32
  busy := false
  done := false
  err := .none
  ec := 0#5
  ph := 0#3
  tk := .receive
  tsa := 0#7
  tra := 0#8
  twd := 0#8
  hi := 0#8

/-- The free environment with scripted answers. -/
def freeEnv (bits : List Bool) (bytes : List Byte) : Env where
  mode := .free
  draws := ⟨bits, bytes, [], 0⟩
  msa := 0#8
  mdr := 0#8
  opn := none
  busyn := 0
  devAddr := 0x68#7
  slv := []
  ptr := 0#8
  wire := []

/-- The reference environment: device at 0x68, this device memory, these numbers of busy polls. -/
def refEnv (m : Memory) (counts : List Nat) : Env :=
  { freeEnv [] [] with mode := .reference, draws := ⟨[], [], counts, 0⟩, slv := m }

/-- The machine with default parameters around a block and an environment, the host quiet. -/
def around (b : Block) (e : Env) : State where
  block := b
  cfg := defaultConfig
  turns := []
  held := none
  reads := []
  trace := []
  env := e

/-- The idle machine. -/
def idle : State := around idleBlock (freeEnv [] [])

/-- The idle machine whose host next writes this word to `CMD`. -/
def writing (w : Word) (e : Env) : State :=
  { around idleBlock e with turns := [.host (.write 0 w)] }

/-- A block that runs this command word, with transaction `ec` in its latches and at phase `ph`. -/
def running (w : Word) (t : Transaction) (ec : BitVec 5) (ph : BitVec 3) : Block :=
  { ({ idleBlock with busy := true, cw := w, ec := ec } : Block).start t with ph := ph }

/-- `RECVB 0x68, 0x75` at phase `ph`. -/
def receiving (ph : BitVec 3) : Block := running 0x10687500#32 (.receive 0x68#7 0x75#8) 0#5 ph

/-- `SENDB 0x68, 0x6B, 0x00` at phase `ph`. -/
def sending (ph : BitVec 3) : Block := running 0x20686B00#32 (.send 0x68#7 0x6B#8 0x00#8) 0#5 ph

/-- The block with this view in `V[0]` to `V[7]`. -/
def viewing (v : Vector Byte 8) : State := around { idleBlock with v := v } (freeEnv [] [])

/-- The outcome is a next state of which the condition holds. -/
def nextWith (r : Result) (p : State → Bool) : Bool :=
  match r with
  | .next t => p t
  | .fault _ => false
  | .refused _ => false

/-! ### Well-formedness: an ill-formed parameter set for each check (R10, R9) -/

/-- Default parameters with one register table entry of these fields. -/
def withFields (fs : List Field) : Config := { defaultConfig with regtab := [⟨0x10#8, "X", fs⟩] }

theorem test_default_wf : defaultConfig.check = none := by decide
theorem test_refuses_empty_field_list : (withFields []).check = some .fieldCount := by decide
theorem test_refuses_nine_fields :
    (withFields (List.replicate 9 ⟨"F", 0, 1⟩)).check = some .fieldCount := by decide
theorem test_refuses_zero_width : (withFields [⟨"F", 0, 0⟩]).check = some .fieldRange := by decide
theorem test_refuses_field_past_bit_seven : (withFields [⟨"F", 7, 2⟩]).check = some .fieldRange := by decide
theorem test_accepts_field_at_bit_seven : (withFields [⟨"F", 7, 1⟩]).check = none := by decide
theorem test_refuses_shared_bit : (withFields [⟨"F", 4, 4⟩, ⟨"G", 0, 5⟩]).check = some .fieldOverlap := by decide
theorem test_refuses_empty_array :
    (Config.check { defaultConfig with arrtab := [⟨"A", 0x49#8, 0⟩] }) = some .arrayRange := by decide
theorem test_refuses_long_array :
    (Config.check { defaultConfig with arrtab := [⟨"A", 0x49#8, 25⟩] }) = some .arrayRange := by decide
theorem test_refuses_array_past_the_end :
    (Config.check { defaultConfig with arrtab := [⟨"A", 0xF9#8, 8⟩] }) = some .arrayRange := by decide
theorem test_refuses_equal_pair_addresses :
    (Config.check { defaultConfig with pairtab := [⟨"P", 0x3B#8, 0x3B#8, true⟩] }) = some .pairAddresses := by decide
theorem test_refuses_duplicate_key :
    (Config.check { defaultConfig with arrtab := [⟨"A", 0x49#8, 2⟩, ⟨"B", 0x49#8, 3⟩] }) = some .duplicateKey := by
  decide
theorem test_refuses_recv_write_ctrl :
    (Config.check { defaultConfig with recvWriteCtrl := .burstFinish }) = some .recvWriteCtrl := by decide
theorem test_build_refuses : State.build (withFields []) = .error .fieldCount := by rfl

/-! ### Decoding: words written out bit by bit from R85 and R92 to R95 -/

/-- `0001 0000 0sss ssss rrrr rrrr 0000 0000`, slave 1101000, register 01110101. -/
theorem test_decode_recvb :
    decode (.command 0b00010000011010000111010100000000#32) = .ok (.recvb 0x68#7 0x75#8) := by decide
/-- T9, the largest legal `SENDB` word. -/
theorem test_decode_sendb :
    decode (.command 0b00100000011111111111111111111111#32) = .ok (.sendb 0x7F#7 0xFF#8 0xFF#8) := by decide
theorem test_decode_dec :
    decode (.command 0b00110000000000000001110010010000#32) = .ok (.dec 0x1C#8 0x90#8) := by decide
theorem test_decode_enc :
    decode (.command 0b01000000000000000010011100000000#32) = .ok (.enc 0x27#8) := by decide
theorem test_decode_rdreg :
    decode (.command 0b01010000000000000111010100000000#32) = .ok (.rdreg 0x75#8) := by decide
theorem test_decode_wrreg :
    decode (.command 0b01100000000000000001110000000000#32) = .ok (.wrreg 0x1C#8) := by decide
theorem test_decode_rdpair :
    decode (.command 0b01110000000000000011101100000000#32) = .ok (.rdpair 0x3B#8) := by decide
theorem test_decode_rdarr :
    decode (.command 0b10000000000001010100100100000000#32) = .ok (.rdarr 0x49#8 5#8) := by decide
theorem test_decode_wrarr :
    decode (.command 0b10010000000000100011000110100101#32) = .ok (.wrarr 0x31#8 2#8 0xA5#8) := by decide
theorem test_decode_rdbank :
    decode (.command 0b10100000000000000100100100000000#32) = .ok (.rdbank 0x49#8) := by decide
theorem test_decode_wrbank :
    decode (.command 0b10110000000000000011000100000000#32) = .ok (.wrbank 0x31#8) := by decide
/-- M2. -/
theorem test_decode_setaddr : decode (.microOp 0b00011010001#11) = .ok (.setaddr 0x68#7 .read) := by decide
/-- M7. -/
theorem test_decode_put : decode (.microOp 0b00101110101#11) = .ok (.put 0x75#8) := by decide
/-- M9. -/
theorem test_decode_burst_start : decode (.microOp 0b01000000011#11) = .ok .ctrlBurstStart := by decide
/-- M10. -/
theorem test_decode_burst_finish : decode (.microOp 0b01000000101#11) = .ok .ctrlBurstFinish := by decide
/-- M11. -/
theorem test_decode_single : decode (.microOp 0b01000000111#11) = .ok .ctrlSingle := by decide
/-- M12. -/
theorem test_decode_poll : decode (.microOp 0b01100000000#11) = .ok .poll := by decide
/-- M13. -/
theorem test_decode_get : decode (.microOp 0b10000000000#11) = .ok .get := by decide
/-- E1. -/
theorem test_rejects_zero_word : decode (.command 0x00000000#32) = .error .reservedOpcode := by decide
/-- E7: `z2` = 1. -/
theorem test_rejects_z2 : decode (.command 0x10E87500#32) = .error .nonzeroMbz := by decide
/-- M14: 0x301 and 0x202 are never emitted; kind 5. -/
theorem test_rejects_micro_words : decode (.microOp 0x301#11) = .error .reservedPayload ∧
    decode (.microOp 0x202#11) = .error .reservedPayload ∧ decode (.microOp 0x500#11) = .error .reservedKind := by decide
theorem test_table_word_widths :
    decodeTableWord 16 0x1175 = none ∧ decodeTableWord 32 0x10E87500 = none := by decide

/-! ### One step of each command -/

/-- T1, the accept step. -/
theorem test_recvb : nextWith (step (writing 0x10687500#32 (freeEnv [] []))) (fun t =>
    t.block.status == 1#32 && t.block.cw == 0x10687500#32 && t.block.tsa == 0x68#7 && t.block.tra == 0x75#8 &&
      t.block.tk == .receive && t.trace == []) = true := by decide
/-- T9, the accept step. -/
theorem test_sendb : nextWith (step (writing 0x207FFFFF#32 (freeEnv [] []))) (fun t =>
    t.block.status == 1#32 && t.block.tsa == 0x7F#7 && t.block.tra == 0xFF#8 && t.block.twd == 0xFF#8 &&
      t.block.tk == .send) = true := by decide
/-- K20: seven fields; the eighth view register stays. -/
theorem test_dec : nextWith (exec (.dec 0x6C#8 0xC7#8) idle) (fun t =>
    t.block.v == #v[3, 0, 0, 0, 1, 1, 1, 9] && t.block.status == 2#32) = true := by decide
/-- E20. -/
theorem test_dec_unknown : nextWith (exec (.dec 0x76#8 0x90#8) idle) (fun t =>
    t.block.v == idleBlock.v && t.block.status == 0xE#32 && t.block.cw == 0x30007690#32) = true := by decide
/-- K36: without the mask bit 4 would be set. -/
theorem test_enc : nextWith (exec (.enc 0x27#8) (viewing #v[1, 0, 0, 0, 0x14, 9, 9, 9])) (fun t =>
    t.block.rd == 0x84#8 && t.block.status == 2#32) = true := by decide
/-- K42: a field of width 8. -/
theorem test_enc_full_width : nextWith (exec (.enc 0x75#8) (viewing #v[0x68, 0, 0, 0, 0, 0, 0, 0])) (fun t =>
    t.block.rd == 0x68#8) = true := by decide
/-- A3, the step that ends the command: reserved bits are in `RD`, not in `V`. -/
theorem test_rdreg_end : nextWith (step (around (running 0x50001C00#32 (.receive 0x68#7 0x1C#8) 0#5 7#3)
    (freeEnv [] [0xFF#8]))) (fun t => t.block.rd == 0xFF#8 && t.block.v == #v[1, 1, 1, 3, 9, 9, 9, 9] &&
      t.block.status == 2#32 && t.block.ph == 0#3) = true := by decide
/-- E19. -/
theorem test_rdreg_unknown : nextWith (step (writing 0x50006100#32 (freeEnv [] []))) (fun t =>
    t.block.status == 0xE#32) = true := by decide
/-- A4b: the byte is encoded in the accept step, every field masked. -/
theorem test_wrreg : nextWith (exec (.wrreg 0x1C#8) (viewing #v[3, 2, 0xFF, 6, 9, 9, 9, 9])) (fun t =>
    t.block.twd == 0xB0#8 && t.block.tra == 0x1C#8 && t.block.status == 1#32) = true := by decide
/-- A5, the step `0x400:0x12`. -/
theorem test_rdpair_first : nextWith (step (around (running 0x70003B00#32 (.receive 0x68#7 0x3B#8) 0#5 7#3)
    (freeEnv [] [0x12#8]))) (fun t => t.block.ec == 1#5 && t.block.ph == 0#3 && t.block.hi == 0x12#8 &&
      t.block.rd == 0x12#8 && t.block.rw == 0xBEEF#16 && t.block.tra == 0x3C#8 && t.block.busy) = true := by decide
/-- A5, the step `0x400:0x34`. -/
theorem test_rdpair_second : nextWith (step (around { running 0x70003B00#32 (.receive 0x68#7 0x3C#8) 1#5 7#3 with
    hi := 0x12#8 } (freeEnv [] [0x34#8]))) (fun t => t.block.rw == 0x1234#16 && t.block.rd == 0x34#8 &&
      t.block.status == 2#32 && t.block.ec == 0#5) = true := by decide
/-- A8: the last legal index. -/
theorem test_rdarr_last_index : nextWith (exec (.rdarr 0x49#8 23#8) idle) (fun t =>
    t.block.tra == 0x60#8 && t.block.status == 1#32) = true := by decide
/-- A9: the first index refused. -/
theorem test_rdarr_index_refused : nextWith (exec (.rdarr 0x49#8 24#8) idle) (fun t =>
    t.block.status == 6#32 && t.block.rd == 0xEE#8 && t.block.cw == 0x80184900#32) = true := by decide
/-- A12. -/
theorem test_wrarr : nextWith (exec (.wrarr 0x31#8 2#8 0xA5#8) idle) (fun t =>
    t.block.tra == 0x33#8 && t.block.twd == 0xA5#8 && t.block.status == 1#32) = true := by decide
/-- A13. -/
theorem test_wrarr_index_refused : nextWith (exec (.wrarr 0x31#8 5#8 0xA5#8) idle) (fun t =>
    t.block.status == 6#32) = true := by decide
/-- A16: after the `GET` of element 3 the next element is 4. -/
theorem test_rdbank_element : nextWith (step (around (running 0xA0004900#32 (.receive 0x68#7 0x4C#8) 3#5 7#3)
    (freeEnv [] [0x13#8]))) (fun t => t.block.buf[3] == 0x13#8 && t.block.buf[4] == 0x44#8 && t.block.ec == 4#5 &&
      t.block.tra == 0x4D#8 && t.block.busy) = true := by decide
/-- A16: the last element ends the command. -/
theorem test_rdbank_last : nextWith (step (around (running 0xA0004900#32 (.receive 0x68#7 0x60#8) 23#5 7#3)
    (freeEnv [] [0x27#8]))) (fun t => t.block.buf[23] == 0x27#8 && t.block.ec == 0#5 && t.block.status == 2#32) =
      true := by decide
/-- A17: the second element is started with `BUF[1]`. -/
theorem test_wrbank_element : nextWith (step (around { running 0xB0003100#32 (.send 0x68#7 0x31#8 0x8C#8) 0#5 6#3 with
    buf := idleBlock.buf.set 1 0x03#8 } (freeEnv [false] []))) (fun t => t.block.ec == 1#5 && t.block.tra == 0x32#8 &&
      t.block.twd == 0x03#8 && t.block.ph == 0#3 && t.block.busy) = true := by decide
/-- A17: the fifth element ends the command. -/
theorem test_wrbank_last : nextWith (step (around (running 0xB0003100#32 (.send 0x68#7 0x35#8 0x5A#8) 4#5 6#3)
    (freeEnv [false] []))) (fun t => t.block.status == 2#32 && t.block.ec == 0#5) = true := by decide

/-! ### One step of each micro-operation -/

/-- T1, the fifth entry: `SETADDR 0x68, read` is 0x0D1. -/
theorem test_setaddr : nextWith (step (around (receiving 4#3) (refEnv [] []))) (fun t =>
    t.trace == [⟨0x0D1#11, .nothing⟩] && t.block.ph == 5#3 && t.env.msa == 0xD1#8) = true := by decide
/-- T1, the second entry. -/
theorem test_put : nextWith (step (around (receiving 1#3) (refEnv [] []))) (fun t =>
    t.trace == [⟨0x175#11, .nothing⟩] && t.block.ph == 2#3 && t.env.mdr == 0x75#8) = true := by decide
/-- T3, the third entry, and `OPEN` of R121. -/
theorem test_burst_start : nextWith (step (around (sending 2#3)
    { refEnv [] [4] with msa := 0xD0#8, mdr := 0x6B#8 })) (fun t => t.trace == [⟨0x203#11, .nothing⟩] &&
      t.env.opn == some ⟨0x68#7, [0x6B#8]⟩ && t.env.busyn == 4 && t.block.ph == 3#3) = true := by decide
/-- T4, the burst finish: the byte lands at the address of the open transaction. -/
theorem test_burst_finish : nextWith (step (around (sending 5#3)
    { refEnv [(0x18, 1#8)] [1] with msa := 0xD0#8, mdr := 0x55#8, opn := some ⟨0x68#7, [0x19#8]⟩ })) (fun t =>
      t.trace == [⟨0x205#11, .nothing⟩] && t.env.slv == [(0x18, 1#8), (0x19, 0x55#8)] && t.env.opn == none) =
    true := by decide
/-- T1, the seventh entry: the slave's byte is clocked in; R116: a START where nothing is open. -/
theorem test_single_read : nextWith (step (around (receiving 5#3)
    { refEnv [(0x75, 0x68#8)] [0] with msa := 0xD1#8, ptr := 0x75#8 })) (fun t =>
      t.trace == [⟨0x207#11, .nothing⟩] && t.env.mdr == 0x68#8 &&
        t.env.wire == [.start, .addr 0x68#7 .read, .ack, .data 0x68#8, .nack, .stop]) = true := by decide
/-- T6: a slave address nobody answers; the byte lands nowhere. -/
theorem test_burst_finish_no_slave : nextWith (step (around (sending 5#3)
    { refEnv [(0x02, 0x11#8)] [0] with msa := 0x3C#8, mdr := 0x03#8, opn := some ⟨0x1E#7, [0x02#8]⟩ })) (fun t =>
      t.env.slv == [(0x02, 0x11#8)] && t.env.wire == [.data 0x03#8, .nack, .stop]) = true := by decide
/-- T1, the fourth entry: busy, the phase stays. -/
theorem test_poll_busy : nextWith (step (around (receiving 3#3) (freeEnv [true] []))) (fun t =>
    t.trace == [⟨0x300#11, .busy true⟩] && t.block == receiving 3#3) = true := by decide
/-- T3, the last entry: not busy in the last phase of a send ends the command. -/
theorem test_poll_ends_send : nextWith (step (around (sending 6#3) (freeEnv [false] []))) (fun t =>
    t.trace == [⟨0x300#11, .busy false⟩] && t.block.status == 2#32 && t.block.ph == 0#3) = true := by decide
/-- T1, the last entry. -/
theorem test_get : nextWith (step (around (receiving 7#3) (freeEnv [] [0x68#8]))) (fun t =>
    t.trace == [⟨0x400#11, .data 0x68#8⟩] && t.block.rd == 0x68#8 && t.block.status == 2#32 &&
      t.block.v == idleBlock.v) = true := by decide

/-! ### The host port and reset -/

/-- H6: only `w[7:0]` is stored. -/
theorem test_write_view : nextWith (hostWrite 8 0x000001FF#32 idle) (fun t =>
    t.block.readPort 8 == 0xFF#32 && t.block.v[1] == 0x09#8) = true := by decide
/-- H8: the last buffer register. -/
theorem test_write_buf : nextWith (hostWrite 55 0xAB#32 idle) (fun t => t.block.readPort 55 == 0xAB#32) = true := by
  decide
/-- H4. -/
theorem test_unmapped_reads : [4, 7, 16, 31, 56, 0xFFFF].map idleBlock.readPort = [0, 0, 0, 0, 0, 0] := by decide
/-- R42, R39: in the state in which `BUSY` is 0 and the write transfers, the hold is lifted. -/
theorem test_hready_lifted : ({ idle with held := some ⟨8, 0x77#32⟩ } : State).hready = true := by decide
/-- H11: the write is held, and `hready` is 0. -/
theorem test_held : nextWith (step { around (receiving 0#3) (freeEnv [] []) with
    turns := [.host (.write 8 0x77#32)] }) (fun t => t.held == some ⟨8, 0x77#32⟩ && !t.hready &&
      t.block == receiving 0#3 && t.trace == []) = true := by decide
/-- P5, move 4: reset while a command runs and a write is held. -/
theorem test_reset_running : nextWith (step { around (sending 3#3) (freeEnv [] []) with
    turns := [.host .reset], held := some ⟨8, 0x55#32⟩ }) (fun t => t.block.status == 0#32 && t.block.cw == 0#32 &&
      t.block.ph == 0#3 && t.held == none && t.block.v == idleBlock.v && t.block.tra == 0x6B#8) = true := by decide
/-- E33: `ILLEGAL_COMMAND` comes first. -/
theorem test_illegal_first : nextWith (step (writing 0x81FF5001#32 (freeEnv [] []))) (fun t =>
    t.block.status == 0xA#32 && t.block.cw == 0x81FF5001#32) = true := by decide
/-- E26: `UNKNOWN_REGISTER` comes before `INVALID_INDEX`. -/
theorem test_unknown_before_index : nextWith (exec (.rdarr 0x50#8 200#8) idle) (fun t =>
    t.block.status == 0xE#32) = true := by decide
/-- Section 5, the signed readings of `RW`. -/
theorem test_signed : [0x0000#16, 0x7FFF#16, 0x8000#16, 0xFF38#16, 0xFFFF#16].map signedReading =
    [0, 32767, -32768, -200, -1] := by decide
/-- R97: `RDREG WHO_AM_I` is `RDREG 0x75`. -/
theorem test_names : addressOf defaultConfig "WHO_AM_I" = some 0x75#8 ∧
    addressOf defaultConfig "EXT_SENS_DATA" = some 0x49#8 ∧ addressOf defaultConfig "TEMP_OUT" = some 0x41#8 := by decide

/-! ### Witnesses: for every obligation with hypotheses, a state and operands that meet them all -/

theorem witness_EncodeOfDecode : decode (.command 0x207FFFFF#32) = .ok (.sendb 0x7F#7 0xFF#8 0xFF#8) ∧
    decode (.microOp 0x0FF#11) = .ok (.setaddr 0x7F#7 .read) := by decide

/-- The fields of `INT_PIN_CFG`, with a reserved bit, and of `WHO_AM_I`, which cover the byte. -/
def someFields : List Field := (fieldsOf defaultConfig 0x37#8).getD []
def fullField : List Field := [⟨"WHO_AM_I", 0, 8⟩]

theorem witness_CodecBits : fieldsWf someFields = true ∧ (someFields[0]?).isSome = true ∧
    fieldsWf fullField = true ∧ [0xFF#8].length = fullField.length := by decide
theorem witness_FieldMasks : fieldsWf someFields = true := by decide
theorem witness_ByteRoundTrip : fieldsWf someFields = true ∧ coveredMask someFields = 0xFE#8 ∧
    fieldsWf fullField = true ∧ coveredMask fullField = 0xFF#8 := by decide
/-- The value is the greatest that fits, and one bit too wide. -/
theorem witness_FieldRoundTrip : fieldsWf fullField = true ∧ [255#8].length = fullField.length ∧
    fullField[0]? = some ⟨"WHO_AM_I", 0, 8⟩ ∧ [255#8][0]? = some 255#8 ∧ (255#8).toNat < 2 ^ 8 ∧
    ¬ (2#8).toNat < 2 ^ 1 := by decide
theorem witness_EncodeOrderIndependent :
    [(⟨"A", 0, 4⟩, 1#8), ((⟨"B", 4, 4⟩ : Field), 2#8)].Perm [(⟨"B", 4, 4⟩, 2#8), (⟨"A", 0, 4⟩, 1#8)] ∧
      fieldsWf someFields = true := by decide
/-- Eight fields, so that `V[7]` is one; and one field, so that `V[1]` to `V[7]` stay. -/
theorem witness_DecCompletes : (fieldsOf idle.cfg 0x23#8).map List.length = some 8 ∧
    (fieldsOf idle.cfg 0x75#8).map List.length = some 1 := by decide
theorem witness_EncCompletes : fieldsOf idle.cfg 0x75#8 = some fullField := by decide
theorem witness_RegisterCommandsAccept : fieldsOf idle.cfg 0x75#8 = some fullField := by decide
theorem witness_ArrayCommandsAccept : idle.cfg.wf = true ∧
    arrayOf idle.cfg 0x49#8 = some ⟨"EXT_SENS_DATA", 0x49#8, 24⟩ ∧ (23#8).toNat < 24 := by decide
theorem witness_PairAndBankCommandsAccept : pairOf idle.cfg 0x3B#8 = some ⟨"ACCEL_XOUT", 0x3B#8, 0x3C#8, true⟩ ∧
    arrayOf idle.cfg 0x49#8 = some ⟨"EXT_SENS_DATA", 0x49#8, 24⟩ := by decide
theorem witness_TransactionsOfCommands : defaultConfig.wf = true ∧ fieldsOf defaultConfig 0x75#8 = some fullField ∧
    (pairOf defaultConfig 0x3B#8).isSome = true ∧ (arrayOf defaultConfig 0x31#8).map (·.count) = some 5 ∧
    (4#8).toNat < 5 := by decide
/-- Each reason of R208: no entry, the first index refused, a word that is no command. -/
theorem witness_RefusalEffect : encode (.rdbank 0x3B#8) = .command 0xA0003B00#32 ∧
    refusalOf idle.cfg (.rdbank 0x3B#8) = some .unknownRegister ∧
    encode (.rdarr 0x49#8 24#8) = .command 0x80184900#32 ∧
    refusalOf idle.cfg (.rdarr 0x49#8 24#8) = some .invalidIndex ∧
    decodeCommand 0xC0000000#32 = .error .reservedOpcode := by decide
theorem witness_AcceptEffect : encode (.rdarr 0x49#8 23#8) = .command 0x80174900#32 ∧
    refusalOf idle.cfg (.rdarr 0x49#8 23#8) = none ∧ carriedOutAtOnce (.rdarr 0x49#8 23#8) = false ∧
    encode (.enc 0x1C#8) = .command 0x40001C00#32 ∧ refusalOf idle.cfg (.enc 0x1C#8) = none ∧
    carriedOutAtOnce (.enc 0x1C#8) = true := by decide
/-- Equal tables, and another view, another `SLAVE_ADDR` and another `RECV_WRITE_CTRL`. -/
theorem witness_RefusalIndependentOfState :
    let s := viewing #v[1, 2, 3, 4, 5, 6, 7, 8]
    let c := { s.cfg with slaveAddr := 0x69#7, recvWriteCtrl := .burstStart }
    let s' : State := { s with cfg := c }
    idle.cfg.regtab = s'.cfg.regtab ∧ idle.cfg.pairtab = s'.cfg.pairtab ∧ idle.cfg.arrtab = s'.cfg.arrtab ∧
      idle.cfg.slaveAddr ≠ s'.cfg.slaveAddr ∧ idle.cfg.recvWriteCtrl ≠ s'.cfg.recvWriteCtrl ∧ idle.block ≠ s'.block := by
  decide
theorem witness_SetaddrPutComplete : idle.env.mode = .free ∧ (refEnv [] []).mode = .reference := by decide
/-- The reference environment with a transaction open, in write and in read direction. -/
def openEnv (dir : Dir) : Env :=
  { refEnv [] [] with msa := 0x68#7 ++ dir.bit, mdr := 0x55#8, opn := some ⟨0x68#7, [0x19#8, 0x01#8]⟩ }
/-- Free; reference in write direction without and with an open transaction; reference in read direction. -/
theorem witness_CtrlCompletes : idle.env.mode = .free ∧
    ((refEnv [] []).mode = .reference ∧ (refEnv [] []).msa.getLsbD 0 = false ∧ (refEnv [] []).opn.isSome = false) ∧
    ((openEnv .write).msa.getLsbD 0 = false ∧ (openEnv .write).opn.isSome = true) ∧
    (openEnv .read).msa.getLsbD 0 = true := by decide
theorem witness_PollCompletes : (freeEnv [true] []).busyAnswer = true ∧ (freeEnv [false] []).busyAnswer = false ∧
    (sending 6#3).tk = .send ∧ (sending 6#3).ph = 6#3 ∧
    ¬ ((receiving 6#3).tk = .send ∧ (receiving 6#3).ph = 6#3) := by decide
/-- A receive and a send with a further transaction, and the last transaction of each. -/
theorem witness_TransactionEnds :
    let b (ec : BitVec 5) := running 0xA0004900#32 (.receive 0x68#7 0x5F#8) ec 7#3
    let b' (ec : BitVec 5) := running 0xB0003100#32 (.send 0x68#7 0x34#8 0x44#8) ec 6#3
    defaultConfig.wf = true ∧ (b 22#5).busy = true ∧ decodeCommand (b 22#5).cw = .ok (.rdbank 0x49#8) ∧
      (transactionsOf defaultConfig (b 22#5) (.rdbank 0x49#8))[(b 22#5).ec.toNat + 1]? = some (.receive 0x68#7 0x60#8) ∧
      (transactionsOf defaultConfig (b 23#5) (.rdbank 0x49#8))[(b 23#5).ec.toNat + 1]? = none ∧
      (b' 3#5).busy = true ∧ decodeCommand (b' 3#5).cw = .ok (.wrbank 0x31#8) ∧
      (transactionsOf defaultConfig (b' 3#5) (.wrbank 0x31#8))[(b' 3#5).ec.toNat + 1]? =
        some (.send 0x68#7 0x35#8 0x44#8) ∧
      (transactionsOf defaultConfig (b' 4#5) (.wrbank 0x31#8))[(b' 4#5).ec.toNat + 1]? = none := by decide
theorem witness_CommandFrame : (∃ t, exec (.dec 0x75#8 1#8) idle = .next t) ∧ Instr.isCommand (.dec 0x75#8 1#8) = true ∧
    fieldsOf idle.cfg 0x75#8 = some fullField ∧ (∃ t, exec (.rdbank 0x3B#8) idle = .next t) ∧
    refusalOf idle.cfg (.rdbank 0x3B#8) ≠ none :=
  ⟨⟨_, rfl⟩, by decide, by decide, ⟨_, rfl⟩, by decide⟩
/-- `GET` at the end of a `RECVB`: a command that collects none of `V`, `RW`, `HI`, `BUF`; and a `POLL`. -/
theorem witness_MicroOpFrame : (∃ t, exec .get (around (receiving 7#3) (freeEnv [] [1#8])) = .next t) ∧
    (∃ t, exec .poll (around (receiving 6#3) (freeEnv [false] [])) = .next t) ∧
    (∃ t, exec .ctrlBurstStart (around (sending 2#3) (freeEnv [] [])) = .next t) ∧
    decodeCommand (receiving 7#3).cw = .ok (.recvb 0x68#7 0x75#8) :=
  ⟨⟨_, rfl⟩, ⟨_, rfl⟩, ⟨_, rfl⟩, by decide⟩
theorem witness_StoringMicroOpFrame :
    (∃ t, exec .ctrlBurstFinish (around (sending 5#3) (openEnv .write)) = .next t) ∧
    (openEnv .write).slaveStore 0x68#7 ([0x19#8, 0x01#8] ++ [0x55#8]) = some (0x19#8, 0x01#8) ∧
    (∃ t, exec .ctrlSingle (around (receiving 5#3) (openEnv .read)) = .next t) ∧ (openEnv .read).msaDir = .read ∧
    (openEnv .read).slaveStore 0x68#7 [0x19#8, 0x01#8] = some (0x19#8, 0x01#8) ∧ (openEnv .write).msaDir = .write :=
  ⟨⟨_, rfl⟩, by decide, ⟨_, rfl⟩, by decide, by decide, by decide⟩
theorem witness_StepRunsCommand : (writing 0x10687500#32 (freeEnv [] [])).block.busy = false ∧
    decodeCommand 0x10687500#32 = .ok (.recvb 0x68#7 0x75#8) ∧
    (writing 0x10687500#32 (freeEnv [] [])).turns = [.host (.write 0 0x10687500#32)] ∧
    ({ idle with held := some ⟨0, 0x10687500#32⟩ } : State).held = some ⟨0, 0x10687500#32⟩ ∧ idle.held = none ∧
    ({ idle with turns := [.host (.write 8 0x77#32)] } : State).turns = .host (.write 8 0x77#32) :: [] := by decide
/-- A command runs, with its own turn, none, or the host held; `BUSY` is 0; the host waits while `BUSY` is 1. -/
theorem witness_StepRunsMicroOp : (receiving 0#3).busy = true ∧
    currentOp defaultConfig (receiving 0#3) = some (.setaddr 0x68#7 .write) ∧
    currentOp defaultConfig (sending 6#3) = some .poll ∧ HostMove.wait ≠ .reset ∧
    (some ⟨0, 0#32⟩ : Option HostWrite) ≠ none ∧
    (idle.held = none ∧ idle.block.busy = false ∧ idle.turns = []) ∧
    ({ idle with turns := [.sequencer] } : State).turns = .sequencer :: [] ∧
    (let s : State := { around (receiving 0#3) (freeEnv [] []) with turns := [.host .wait] }
     s.held = none ∧ s.block.busy = true ∧ s.turns = .host .wait :: []) := by decide
/-- The state in which a write is held while `RECVB` runs. -/
def holding : State := { around (receiving 0#3) (freeEnv [] []) with held := some ⟨8, 0x77#32⟩ }
theorem witness_HeldWrite : holding.block.busy = true ∧ holding.held = some ⟨8, 0x77#32⟩ ∧
    (∃ t, step holding = .next t) ∧ (around (receiving 0#3) (freeEnv [] [])).held = none ∧ idle.block.busy = false :=
  ⟨by decide, by decide, ⟨_, rfl⟩, by decide, by decide⟩
/-- The numbers next to the registers on either side. -/
theorem witness_ReadOnlyAndUnmapped : ∀ n ∈ [4, 7, 16, 31, 56, 0xFFFF],
    (3 < n ∧ n < 8) ∨ (15 < n ∧ n < 32) ∨ 55 < n := by decide
theorem witness_HostReads : ({ holding with held := none, turns := [.host (.read 1)] } : State).held = none := by decide
theorem witness_SignedReading : (⟨"FIFO_COUNT", 0x72#8, 0x73#8, false⟩ : PairEntry).signed = false ∧
    (⟨"TEMP_OUT", 0x41#8, 0x42#8, true⟩ : PairEntry).signed = true := by decide
/-- Reset while a write is held and a command runs, and with nothing held; and with a write held and `BUSY` already 0. -/
theorem witness_ResetInput : ({ holding with turns := [.host .reset] } : State).turns = .host .reset :: [] ∧
    holding.block.busy = true ∧ idle.held = none ∧
    ({ idle with turns := [.host .reset], held := some ⟨8, 0x77#32⟩ } : State).held = some ⟨8, 0x77#32⟩ ∧
    idle.block.busy = false := by decide
/-- Idle, running in the free environment, and running in the reference environment in the middle of a send. -/
theorem witness_InvKept : stateInv idle = true ∧ stateInv (around (receiving 7#3) (freeEnv [] [1#8])) = true ∧
    stateInv (around (sending 5#3) { refEnv [(1, 1#8)] [0] with
      msa := 0xD0#8, mdr := 0#8, opn := some ⟨0x68#7, [0x6B#8]⟩ }) = true := by decide
theorem witness_InvKept_steps : (∃ t, step idle = .next t) ∧
    ∃ t, step (around (receiving 7#3) (freeEnv [] [1#8])) = .next t := ⟨⟨_, rfl⟩, ⟨_, rfl⟩⟩
theorem witness_NeverStops : stateInv (around (receiving 2#3) { refEnv [] [] with msa := 0xD0#8, mdr := 0x75#8 }) =
    true := by decide
theorem witness_BusyDoneErr : stateInv idle = true ∧ idle.block.busy = false ∧
    (∃ t, hostWrite 0 0x10687500#32 idle = .next t) ∧ (receiving 0#3).busy ≠ (receiving 0#3).done ∧
    stateInv (around (receiving 0#3) (freeEnv [] [])) = true :=
  ⟨by decide, by decide, ⟨_, rfl⟩, by decide, by decide⟩
theorem witness_TraceGrowth : (∃ t, step holding = .next t) ∧ (∃ t, hostWrite 8 0x77#32 idle = .next t) ∧
    (∃ t, hostMove .wait idle = .next t) ∧ currentOp holding.cfg holding.block = some (.setaddr 0x68#7 .write) :=
  ⟨⟨_, rfl⟩, ⟨_, rfl⟩, ⟨_, rfl⟩, by decide⟩
theorem witness_TraceNeverRead : ∃ t, step holding = .next t := ⟨_, rfl⟩
/-- The last step of an `RDREG`, which changes `V`. -/
theorem witness_ResultsAppearInLastStep :
    let s := around (running 0x50001C00#32 (.receive 0x68#7 0x1C#8) 0#5 7#3) (freeEnv [] [0xFF#8])
    stateInv s = true ∧ s.block.busy = true ∧ nextWith (step s) (fun t => t.block.v != s.block.v) = true := by decide
/-- A free and a reference environment that answer the same. -/
theorem witness_EnvironmentSeenThroughAnswers :
    (refEnv [] []).busyAnswer = (freeEnv [false] [0#8]).busyAnswer ∧
    (refEnv [] []).byteAnswer = (freeEnv [false] [0#8]).byteAnswer ∧
    (∃ t, step (around (receiving 3#3) (freeEnv [false] [0#8])) = .next t) ∧
    ∃ t, step (around (receiving 3#3) (refEnv [] [])) = .next t :=
  ⟨by decide, by decide, ⟨_, rfl⟩, ⟨_, rfl⟩⟩
theorem witness_ParametersNeverChange : (∃ t, step idle = .next t) ∧ idle.block.busy = false := ⟨⟨_, rfl⟩, rfl⟩
theorem witness_WorkDecreases : stateInv (around (receiving 3#3) (freeEnv [true] [])) = true ∧
    (around (receiving 3#3) (freeEnv [true] [])).pollsBusy = true ∧
    stateInv (around (receiving 0#3) (freeEnv [true] [])) = true ∧
    (around (receiving 0#3) (freeEnv [true] [])).pollsBusy = false ∧ (receiving 0#3).busy = true := by decide
/-- The last step of a command, where the work left goes from 1 to 0. -/
theorem witness_WorkDecreases_step : (∃ t, step (around (receiving 7#3) (freeEnv [] [1#8])) = .next t) ∧
    (receiving 7#3).work defaultConfig = 1 := ⟨⟨_, rfl⟩, by decide⟩
theorem witness_CommandEndsIfLive :
    (around (receiving 0#3) (freeEnv (List.replicate 48 false) [])).answersSuffice = true ∧
    stateInv (around (receiving 0#3) (freeEnv (List.replicate 48 false) [])) = true ∧
    (around (receiving 0#3) (refEnv [] [3, 5])).answersSuffice = true ∧
    stateInv (around (receiving 0#3) (refEnv [] [3, 5])) = true := by decide
theorem witness_CommandEndsIfLive_run : (around (receiving 0#3) (refEnv [] [3, 5])).BcLive :=
  State.bcLive_of_reference rfl
theorem witness_HangsWhileBusy : (sending 3#3).busy = true ∧ (sending 3#3).ph = 3#3 ∧ (sending 6#3).ph = 6#3 ∧
    (freeEnv [true, true, false] []).mode = .free ∧
    (freeEnv [true, true, false] []).draws.busy = List.replicate 2 true ++ [false] := by decide
/-- One exchange: one busy answer, then none, and the byte 0x68 (P1). -/
def someExchange : Exchange := ⟨1, 0, 0x68#8⟩
theorem witness_ReceiveTransactionRuns : (receiving 0#3).busy = true ∧ (receiving 0#3).tk = .receive ∧
    (receiving 0#3).ph = 0#3 ∧ (freeEnv [true, false, false] [0x68#8]).draws.busy = waitBits 1 ++ waitBits 0 ++ [] ∧
    (freeEnv [true, false, false] [0x68#8]).draws.byte = 0x68#8 :: [] := by decide
theorem witness_SendTransactionRuns : (sending 0#3).busy = true ∧ (sending 0#3).tk = .send ∧ (sending 0#3).ph = 0#3 ∧
    (freeEnv [true, false, false] []).draws.busy = waitBits 1 ++ waitBits 0 ++ [] := by decide
/-- The environment that answers one exchange. -/
def exchangeEnv : Env := freeEnv (exchangeBits [someExchange] ++ []) (someExchange.byte :: [])
theorem witness_TransactionCommandsRun :
    (∀ w : Word, let s := writing w exchangeEnv
      s.block.busy = false ∧ s.held = none ∧ s.env.mode = .free ∧ s.turns = [.host (.write 0 w)]) ∧
    exchangeEnv.draws.busy = exchangeBits [someExchange] ++ [] ∧
    exchangeEnv.draws.byte = someExchange.byte :: [] := by
  refine ⟨fun w => ?_, ?_⟩ <;> and_intros <;> rfl
theorem witness_RegisterCommandsRun :
    (∀ w : Word, let s := writing w exchangeEnv
      fieldsOf s.cfg 0x75#8 = some fullField ∧ s.block.busy = false ∧ s.held = none ∧ s.env.mode = .free ∧
        s.turns = [.host (.write 0 w)]) ∧
    exchangeEnv.draws.busy = exchangeBits [someExchange] ++ [] ∧
    exchangeEnv.draws.byte = someExchange.byte :: [] := by
  refine ⟨fun w => ?_, ?_⟩ <;> and_intros <;> rfl
theorem witness_RdpairRuns :
    let e := freeEnv (exchangeBits [someExchange, someExchange] ++ []) [0x68#8, 0x68#8]
    let s := writing (formatR 0x7 0 0x3B#8 0) e
    pairOf s.cfg 0x3B#8 = some ⟨"ACCEL_XOUT", 0x3B#8, 0x3C#8, true⟩ ∧ s.block.busy = false ∧ s.held = none ∧
      s.turns = [.host (.write 0 (formatR 0x7 0 0x3B#8 0))] ∧ s.env.mode = .free ∧
      s.env.draws.busy = exchangeBits [someExchange, someExchange] ++ [] ∧
      s.env.draws.byte = someExchange.byte :: someExchange.byte :: [] := by decide
/-- The last element of the longest array. -/
theorem witness_ArrayElementRuns :
    (∀ w : Word, let s := writing w exchangeEnv
      s.cfg.wf = true ∧ arrayOf s.cfg 0x49#8 = some ⟨"EXT_SENS_DATA", 0x49#8, 24⟩ ∧ s.block.busy = false ∧
        s.held = none ∧ s.env.mode = .free ∧ s.turns = [.host (.write 0 w)]) ∧ (23#8).toNat < 24 ∧
    (0x60#8).toNat = (0x49#8).toNat + (23#8).toNat ∧
    exchangeEnv.draws.busy = exchangeBits [someExchange] ++ [] ∧
    exchangeEnv.draws.byte = someExchange.byte :: [] := by
  refine ⟨fun w => ?_, ?_⟩ <;> and_intros <;> first | rfl | decide
/-- Five exchanges, for the five elements of `I2C_SLV4`. -/
def fiveExchanges : List Exchange := List.replicate 5 someExchange
theorem witness_RdbankRuns :
    let s := writing (formatR 0xA 0 0x31#8 0) (freeEnv (exchangeBits fiveExchanges ++ []) (fiveExchanges.map (·.byte) ++ []))
    s.cfg.wf = true ∧ arrayOf s.cfg 0x31#8 = some ⟨"I2C_SLV4", 0x31#8, 5⟩ ∧ fiveExchanges.length = 5 ∧
      s.block.busy = false ∧ s.held = none ∧ s.turns = [.host (.write 0 (formatR 0xA 0 0x31#8 0))] ∧
      s.env.mode = .free ∧ s.env.draws.busy = exchangeBits fiveExchanges ++ [] ∧
      s.env.draws.byte = fiveExchanges.map (·.byte) ++ [] := by decide
theorem witness_WrbankRuns :
    let s := writing (formatR 0xB 0 0x31#8 0) (freeEnv (exchangeBits fiveExchanges ++ []) [])
    s.cfg.wf = true ∧ arrayOf s.cfg 0x31#8 = some ⟨"I2C_SLV4", 0x31#8, 5⟩ ∧ fiveExchanges.length = 5 ∧
      s.block.busy = false ∧ s.held = none ∧ s.turns = [.host (.write 0 (formatR 0xB 0 0x31#8 0))] ∧
      s.env.mode = .free ∧ s.env.draws.busy = exchangeBits fiveExchanges ++ [] := by decide
/-- To the device, and to a slave address that none answers. -/
theorem witness_SendbInReference :
    (∀ sa ∈ [0x68#7, 0x1E#7], let s := writing (formatT 0x2 sa 0x02#8 0x03#8) (refEnv [(2, 0x11#8)] [2, 1])
      s.block.busy = false ∧ s.held = none ∧ s.turns = [.host (.write 0 (formatT 0x2 sa 0x02#8 0x03#8))] ∧
        s.env.mode = .reference ∧ s.env.draws.count = 2 :: 1 :: []) ∧
    (refEnv [(2, 0x11#8)] [2, 1]).devAddr = 0x68#7 ∧ 0x1E#7 ≠ (refEnv [(2, 0x11#8)] [2, 1]).devAddr := by decide
theorem witness_RecvbOnReferenceSlave :
    (∀ sa ∈ [0x68#7, 0x69#7], let s := writing (formatT 0x1 sa 0x75#8 0) (refEnv [(0x75, 0x68#8)] [1, 0])
      s.cfg.recvWriteCtrl ≠ .burstFinish ∧ s.block.busy = false ∧ s.held = none ∧
        s.turns = [.host (.write 0 (formatT 0x1 sa 0x75#8 0))] ∧ s.env.mode = .reference ∧
        s.env.opn = none ∧ s.env.draws.count = 1 :: 0 :: []) ∧
    (refEnv [(0x75, 0x68#8)] [1, 0]).devAddr = 0x68#7 ∧ (refEnv [(0x75, 0x68#8)] [1, 0]).slvAt 0x75#8 = 0x68#8 ∧
    ({ defaultConfig with recvWriteCtrl := .burstStart } : Config).recvWriteCtrl = .burstStart := by decide

end Sys2Proof.Tests
end

/-! Proofs of the scope family: building (O38), no fault (O41), the frame of a step outside the block (O47), and the end
of a running command (O49). On the way: the phase tables as a case split (`PhaseOp`), what a sequencer step does to the
block (`exec_currentOp_block`), that it keeps the invariant (`stateInv_exec_currentOp`), and the work it takes off
(`exec_currentOp_work`). -/

namespace Sys2Proof.Machine

/-! ### Building a machine -/

theorem allPairs_iff_pairwise {α : Type} {r : α → α → Bool} {l : List α} :
    allPairs r l = true ↔ l.Pairwise fun a b => r a b = true := by
  induction l with
  | nil => simp [allPairs]
  | cons x xs ih => simp [allPairs, ih]

/-- Two fields with bits of their own are disjoint exactly when no bit position lies in both. -/
theorem disjoint_iff_no_shared_bit {f g : Field} (hf : 1 ≤ f.width) (hg : 1 ≤ g.width) :
    f.disjoint g = true ↔
      ∀ k, ¬ (f.offset ≤ k ∧ k < f.offset + f.width ∧ g.offset ≤ k ∧ k < g.offset + g.width) := by
  simp only [Field.disjoint, decide_eq_true_eq]
  constructor
  · intro h k
    omega
  · intro h
    have := h (max f.offset g.offset)
    omega

theorem fieldCountWf_iff {fs : List Field} : fieldCountWf fs = true ↔ 1 ≤ fs.length ∧ fs.length ≤ 8 :=
  decide_eq_true_iff

theorem ArrEntry.wf_iff {e : ArrEntry} :
    e.wf = true ↔ 1 ≤ e.count ∧ e.count ≤ 24 ∧ e.base.toNat + e.count - 1 ≤ 0xFF :=
  decide_eq_true_iff

/-- R10, the conditions on one field list, with shared bits said by bit positions. -/
theorem fieldsWf_iff {fs : List Field} :
    fieldsWf fs = true ↔ 1 ≤ fs.length ∧ fs.length ≤ 8 ∧
      (∀ f ∈ fs, 1 ≤ f.width ∧ f.width ≤ 8 ∧ f.offset ≤ 7 ∧ f.offset + f.width ≤ 8) ∧
      fs.Pairwise fun f g => ∀ k, ¬ (f.offset ≤ k ∧ k < f.offset + f.width ∧ g.offset ≤ k ∧
        k < g.offset + g.width) := by
  simp only [fieldsWf, fieldCountWf_iff, Bool.and_eq_true, List.all_eq_true, Field.wf, decide_eq_true_eq,
    allPairs_iff_pairwise, and_assoc]
  refine and_congr_right fun _ => and_congr_right fun _ => and_congr_right fun hwf => ?_
  exact List.Pairwise.iff_of_mem fun hf hg => disjoint_iff_no_shared_bit (hwf _ hf).1 (hwf _ hg).1

/-- One condition of the check: it finds nothing exactly when the condition holds and the rest of the check finds
nothing. -/
theorem refuseUnless_eq_none_iff {ok : Bool} {e : ConfigError} {rest : Option ConfigError} :
    (if !ok then some e else rest) = none ↔ ok = true ∧ rest = none := by
  cases ok <;> simp

/-- The check passes exactly when each of its conditions holds. -/
theorem check_eq_none_iff {c : Config} :
    c.check = none ↔ (∀ e ∈ c.regtab, fieldsWf e.fields = true) ∧ (∀ e ∈ c.arrtab, e.wf = true) ∧
      (∀ e ∈ c.pairtab, e.wf = true) ∧ c.keysDistinct = true ∧ c.recvWriteCtrlLegal = true := by
  simp only [Config.check, refuseUnless_eq_none_iff, fieldsWf, Bool.and_eq_true, List.all_eq_true, forall₂_and,
    and_assoc, and_true]

theorem build_eq_ok_iff {c : Config} : State.build c = .ok (State.resetWith c) ↔ c.check = none := by
  unfold State.build
  split <;> simp [*]

theorem keysDistinct_iff {c : Config} :
    c.keysDistinct = true ↔ c.regtab.Pairwise (fun a b => a.addr ≠ b.addr) ∧
      c.pairtab.Pairwise (fun a b => a.addrH ≠ b.addrH) ∧ c.arrtab.Pairwise fun a b => a.base ≠ b.base := by
  simp only [Config.keysDistinct, Bool.and_eq_true, allPairs_iff_pairwise, bne_iff_ne, and_assoc]

theorem build_defaultConfig : State.build defaultConfig = .ok State.reset :=
  build_eq_ok_iff.2 (by decide)

/-- Settles O38: building succeeds exactly when `Config.check` finds nothing, and each condition of the check is one of
R10 or R9. -/
theorem buildChecksTables : Obligations.BuildChecksTables := by
  refine ⟨fun c => ?_, fun c => ?_, build_defaultConfig⟩
  · rw [build_eq_ok_iff, check_eq_none_iff]
    simp only [fieldsWf_iff, keysDistinct_iff, ArrEntry.wf_iff, PairEntry.wf, Config.recvWriteCtrlLegal, bne_iff_ne]
  · unfold State.build
    split
    · next e _ => exact .inr ⟨e, rfl⟩
    · exact .inl rfl

/-! ### What a step leaves unchanged outside the block -/

/-- A micro-operation leaves the device address, and the device memory in canonical form. -/
theorem exec_microOp_keeps_device {i : Instr} (hi : i.isCommand = false) {s t : State} (h : exec i s = .next t) :
    t.env.devAddr = s.env.devAddr ∧ (s.env.slv.wf = true → t.env.slv.wf = true) := by
  have ctrl {c : Ctrl} {w : Encoded} (h : emitCtrl c w s = .next t) :
      t.env.devAddr = s.env.devAddr ∧ (s.env.slv.wf = true → t.env.slv.wf = true) := by
    obtain ⟨e, he, rfl⟩ := emitCtrl_next h
    obtain ⟨-, hdev, -, hslv⟩ := Env.ctrl_keeps he
    simpa using ⟨hdev, hslv⟩
  cases i with
  | setaddr sa dir => cases h; simp
  | put b => cases h; simp
  | ctrlBurstStart => exact ctrl h
  | ctrlBurstFinish => exact ctrl h
  | ctrlSingle => exact ctrl h
  | poll => cases h; simp
  | get => cases h; simp
  | _ => cases hi

/-- A micro-operation leaves the parameters and the host's side of the port. -/
theorem exec_microOp_frame {i : Instr} (hi : i.isCommand = false) {s t : State} (h : exec i s = .next t) :
    t.cfg = s.cfg ∧ t.turns = s.turns ∧ t.held = s.held ∧ t.reads = s.reads := by
  obtain ⟨a, e, b, rfl⟩ := exec_microOp hi h
  simp

/-- A transferred host write leaves the parameters and the environment. -/
theorem hostWrite_frame {n : Nat} {w : Word} {s t : State} (h : hostWrite n w s = .next t) :
    t.cfg = s.cfg ∧ t.env = s.env := by
  obtain ⟨b, hb⟩ := hostWrite_withBlock n w s
  cases hb.symm.trans h
  exact ⟨rfl, rfl⟩

/-- So does every move of the host. -/
theorem hostMove_frame {m : HostMove} {s t : State} (h : hostMove m s = .next t) : t.cfg = s.cfg ∧ t.env = s.env := by
  cases m with
  | write n w =>
    simp only [hostMove] at h
    split at h
    · cases h; exact ⟨rfl, rfl⟩
    · exact hostWrite_frame h
  | read n => cases h; exact ⟨rfl, rfl⟩
  | wait => cases h; exact ⟨rfl, rfl⟩
  | reset => cases h; exact ⟨rfl, rfl⟩

/-- Settles O47: of all that a step can be, only a micro-operation of the sequencer, while `BUSY` is 1, reaches the
environment, and it leaves the kind and the device address. -/
theorem parametersNeverChange : Obligations.ParametersNeverChange := by
  intro s t h
  obtain ⟨w, -, -, hw⟩ | ⟨rest, i, hb, hi, he⟩ | ⟨rest, -, rfl⟩ | ⟨m, rest, -, -, hm⟩ := step_cases h
  · obtain ⟨hc, henv⟩ := hostWrite_frame hw
    simp [hc, henv]
  · have hmicro := currentOp_microOp hi
    have hmode := exec_microOp_mode hmicro he
    have hdev := (exec_microOp_keeps_device hmicro he).1
    exact ⟨(exec_microOp_frame hmicro he).1, hmode, hdev, by simp [hb]⟩
  · simp
  · obtain ⟨hc, henv⟩ := hostMove_frame hm
    simp [hc, henv]

/-! ### The invariant, taken apart -/

theorem runningOk_iff {c : Config} {b : Block} :
    b.runningOk c = true ↔ ∃ i t, decodeCommand b.cw = .ok i ∧ (transactionsOf c b i)[b.ec.toNat]? = some t ∧
      b.holds t = true ∧ (b.tk = .send → b.ph ≠ 7#3) := by
  unfold Block.runningOk
  split
  · next h => simp [h]
  · next i h =>
    split
    · next ht => simp [h, ht]
    · next t ht => simp [h, ht, imp_iff_not_or]

/-- What the reference controller holds at each phase. -/
theorem inStep_iff {e : Env} {b : Block} :
    e.inStep b = true ↔
      (b.ph ≠ 0#3 → e.msaAddr = b.tsa ∧ e.msaDir = if b.tk = .receive ∧ 5 ≤ b.ph.toNat then .read else .write) ∧
      (b.ph = 2#3 → e.mdr = b.tra) ∧ (b.tk = .send → b.ph = 5#3 → e.mdr = b.twd) ∧
      (b.tk = .send → 3 ≤ b.ph.toNat → b.ph.toNat ≤ 5 → e.opn = some ⟨b.tsa, [b.tra]⟩) := by
  simp only [Env.inStep, Bool.and_eq_true, Bool.or_eq_true, Bool.not_eq_true', Bool.and_eq_false_imp, beq_iff_eq,
    beq_eq_false_iff_ne, decide_eq_true_eq, decide_eq_false_iff_not, and_assoc]
  grind

theorem flagsOk_iff {b : Block} :
    b.flagsOk = true ↔ (b.busy = true → b.done = false) ∧ (b.err = .none ∨ b.done = true ∧ b.busy = false) ∧
      (b.busy = true ∨ b.ec = 0#5 ∧ b.ph = 0#3) := by
  simp [Block.flagsOk, and_assoc, imp_iff_not_or]

theorem stateInv_iff {s : State} :
    stateInv s = true ↔ s.cfg.wf = true ∧ s.block.flagsOk = true ∧
      (s.block.busy = true → s.block.runningOk s.cfg = true) ∧
      (s.block.busy = true → s.env.mode = .reference → s.env.inStep s.block = true) ∧ s.env.slv.wf = true := by
  simp only [stateInv, Bool.and_eq_true, Bool.or_eq_true, Bool.not_eq_true', Bool.and_eq_false_imp,
    beq_eq_false_iff_ne, and_assoc]
  grind

/-! ### The phase tables (R133, R136) -/

/-- Which `CTRL` phase 2 emits. -/
def Block.phaseTwoCtrl (c : Config) (b : Block) : Ctrl :=
  match b.tk with
  | .receive => c.recvWriteCtrl
  | .send => .burstStart

/-- The rows of both phase tables, one case for each row in which they agree. -/
inductive PhaseOp (c : Config) (b : Block) : Instr → Prop where
  | address (hp : b.ph = 0#3) : PhaseOp c b (.setaddr b.tsa .write)
  | putRegister (hp : b.ph = 1#3) : PhaseOp c b (.put b.tra)
  | firstCtrl (hp : b.ph = 2#3) : PhaseOp c b (ctrlInstr (b.phaseTwoCtrl c))
  | firstPoll (hp : b.ph = 3#3) : PhaseOp c b .poll
  | turnAround (hp : b.ph = 4#3) (hk : b.tk = .receive) : PhaseOp c b (.setaddr b.tsa .read)
  | putData (hp : b.ph = 4#3) (hk : b.tk = .send) : PhaseOp c b (.put b.twd)
  | readCtrl (hp : b.ph = 5#3) (hk : b.tk = .receive) : PhaseOp c b (ctrlInstr .single)
  | finishCtrl (hp : b.ph = 5#3) (hk : b.tk = .send) : PhaseOp c b (ctrlInstr .burstFinish)
  | secondPoll (hp : b.ph = 6#3) : PhaseOp c b .poll
  | getByte (hp : b.ph = 7#3) (hk : b.tk = .receive) : PhaseOp c b .get

theorem phase_eq_seven {p : BitVec 3} (h0 : p ≠ 0#3) (h1 : p ≠ 1#3) (h2 : p ≠ 2#3) (h3 : p ≠ 3#3) (h4 : p ≠ 4#3)
    (h5 : p ≠ 5#3) (h6 : p ≠ 6#3) : p = 7#3 := by
  bv_omega

/-- What the sequencer emits is a row of the tables. -/
theorem phaseOp_of_currentOp {c : Config} {b : Block} {i : Instr} (h : currentOp c b = some i) : PhaseOp c b i := by
  have hctrl (k : Ctrl) (hp : b.ph = 2#3) (hk : b.phaseTwoCtrl c = k) : PhaseOp c b (ctrlInstr k) :=
    hk ▸ .firstCtrl hp
  unfold currentOp at h
  split at h
  · next hk =>
    cases h
    unfold receiveOp
    split
    · next hp => exact .address hp
    · next hp => exact .putRegister hp
    · next hp => exact hctrl c.recvWriteCtrl hp (by simp [Block.phaseTwoCtrl, hk])
    · next hp => exact .firstPoll hp
    · next hp => exact .turnAround hp hk
    · next hp => exact .readCtrl hp hk
    · next hp => exact .secondPoll hp
    · next h0 h1 h2 h3 h4 h5 h6 => exact .getByte (phase_eq_seven h0 h1 h2 h3 h4 h5 h6) hk
  · next hk =>
    unfold sendOp at h
    split at h <;> cases h
    · next hp => exact .address hp
    · next hp => exact .putRegister hp
    · next hp => exact hctrl .burstStart hp (by simp [Block.phaseTwoCtrl, hk])
    · next hp => exact .firstPoll hp
    · next hp => exact .putData hp hk
    · next hp => exact .finishCtrl hp hk
    · next hp => exact .secondPoll hp

/-- R28: outside phase 7 of a send the sequencer has something to emit. -/
theorem currentOp_isSome {c : Config} {b : Block} (h : b.tk = .send → b.ph ≠ 7#3) : ∃ i, currentOp c b = some i := by
  unfold currentOp
  split
  · exact ⟨_, rfl⟩
  · next hk =>
    unfold sendOp
    split
    case h_8 h0 h1 h2 h3 h4 h5 h6 => exact absurd (phase_eq_seven h0 h1 h2 h3 h4 h5 h6) (h hk)
    all_goals exact ⟨_, rfl⟩

theorem exec_ctrlInstr (c : Ctrl) (s : State) : exec (ctrlInstr c) s = emitCtrl c (encode (ctrlInstr c)) s := by
  cases c <;> rfl

/-! ### What a sequencer step does to the block -/

theorem PhaseOp.of_poll {c : Config} {b : Block} (h : PhaseOp c b .poll) : b.ph = 3#3 ∨ b.ph = 6#3 := by
  generalize hi : Instr.poll = i at h
  cases h with
  | firstPoll hp => exact .inl hp
  | secondPoll hp => exact .inr hp
  | firstCtrl _ => cases hc : b.phaseTwoCtrl c <;> simp [hc, ctrlInstr] at hi
  | _ => cases hi

theorem PhaseOp.of_get {c : Config} {b : Block} (h : PhaseOp c b .get) : b.ph = 7#3 ∧ b.tk = .receive := by
  generalize hi : Instr.get = i at h
  cases h with
  | getByte hp hk => exact ⟨hp, hk⟩
  | firstCtrl _ => cases hc : b.phaseTwoCtrl c <;> simp [hc, ctrlInstr] at hi
  | _ => cases hi

/-- The phases that neither poll nor get are 0, 1, 2, 4 and 5. -/
theorem PhaseOp.of_other {c : Config} {b : Block} {i : Instr} (h : PhaseOp c b i) (hp : i ≠ .poll) (hg : i ≠ .get) :
    b.ph ≠ 3#3 ∧ b.ph ≠ 6#3 ∧ b.ph.toNat ≤ 5 := by
  cases h <;> simp_all

/-- A micro-operation other than `POLL` and `GET` takes the block to the next phase. -/
theorem exec_microOp_nextPhase {i : Instr} (hi : i.isCommand = false) (hp : i ≠ .poll) (hg : i ≠ .get) {s t : State}
    (h : exec i s = .next t) : t.block = s.block.nextPhase := by
  cases i with
  | setaddr sa dir => cases h; rfl
  | put b => cases h; rfl
  | ctrlBurstStart => obtain ⟨e, -, rfl⟩ := emitCtrl_next h; rfl
  | ctrlBurstFinish => obtain ⟨e, -, rfl⟩ := emitCtrl_next h; rfl
  | ctrlSingle => obtain ⟨e, -, rfl⟩ := emitCtrl_next h; rfl
  | poll => exact absurd rfl hp
  | get => exact absurd rfl hg
  | _ => cases hi

theorem exec_poll_next {s t : State} (h : exec .poll s = .next t) :
    t.env = s.env.afterPoll ∧ t.block = s.block.afterPoll s.cfg s.env.busyAnswer := by
  cases h
  simp

theorem exec_get_next {s t : State} (h : exec .get s = .next t) :
    t.env = s.env.afterGet ∧ t.block = endTransaction s.cfg { s.block with rd := s.env.byteAnswer } := by
  cases h
  simp [Block.afterGet]

@[simp] theorem Block.afterPoll_true (c : Config) (b : Block) : b.afterPoll c true = b := rfl

/-- R132: a `POLL` answered 0 ends a send in phase 6, and goes to the next phase elsewhere. -/
theorem Block.afterPoll_false (c : Config) (b : Block) :
    b.afterPoll c false = if b.tk = .send ∧ b.ph = 6#3 then endTransaction c b else b.nextPhase := by
  unfold Block.afterPoll
  split
  · contradiction
  · split
    · next hk hp => simp [hk, hp]
    · next hn => rw [if_neg fun h => hn h.1 h.2]

/-- What a sequencer step does to the block: a `POLL` answered busy leaves it, the last phase ends the transaction, and
every other step goes to the next phase. -/
theorem exec_currentOp_block {s t : State} {i : Instr} (hop : currentOp s.cfg s.block = some i)
    (h : exec i s = .next t) :
    (s.pollsBusy = true ∧ t.block = s.block) ∨
    (s.pollsBusy = false ∧ s.block.ph.toNat + 1 < phasesOf s.block.tk ∧ t.block = s.block.nextPhase) ∨
    (s.pollsBusy = false ∧ s.block.ph.toNat + 1 = phasesOf s.block.tk ∧
      ∃ x, t.block = endTransaction s.cfg { s.block with rd := x }) := by
  have hphase := phaseOp_of_currentOp hop
  by_cases hg : i = .get
  · subst hg
    obtain ⟨hp, hk⟩ := hphase.of_get
    exact .inr (.inr ⟨by simp [State.pollsBusy, hp], by simp [hp, hk, phasesOf], _, (exec_get_next h).2⟩)
  by_cases hpoll : i = .poll
  · subst hpoll
    have hb := (exec_poll_next h).2
    cases ha : s.env.busyAnswer with
    | true => exact .inl ⟨by simpa [State.pollsBusy, ha] using hphase.of_poll, by simpa [ha] using hb⟩
    | false =>
      have hidle : s.pollsBusy = false := by simp [State.pollsBusy, ha]
      rw [ha, Block.afterPoll_false] at hb
      split at hb
      · next hlast => exact .inr (.inr ⟨hidle, by simp [hlast, phasesOf], s.block.rd, hb⟩)
      · next hlast =>
        refine .inr (.inl ⟨hidle, ?_, hb⟩)
        rcases hphase.of_poll with hp | hp <;> cases hk : s.block.tk <;> simp_all [phasesOf]
  · obtain ⟨h3, h6, hp⟩ := hphase.of_other hpoll hg
    refine .inr (.inl ⟨by simp [State.pollsBusy, h3, h6], ?_,
      exec_microOp_nextPhase (currentOp_microOp hop) hpoll hg h⟩)
    cases s.block.tk <;> simp only [phasesOf] <;> omega

/-! ### The reference controller stays in step with the phase -/

theorem Env.setAddr_reference {e : Env} (hm : e.mode = .reference) (sa : SlaveAddr) (dir : Dir) :
    (e.setAddr (sa ++ dir.bit)).msaAddr = sa ∧ (e.setAddr (sa ++ dir.bit)).msaDir = dir := by
  simp only [Env.setAddr, hm, Env.msaAddr, Env.msaDir]
  rw [BitVec.extractLsb'_append_eq_of_le (by omega), BitVec.extractLsb'_append_eq_of_add_le (by omega)]
  exact ⟨by simp, by cases dir <;> rfl⟩

theorem Env.put_reference {e : Env} (hm : e.mode = .reference) (x : Byte) : (e.put x).mdr = x := by
  simp [Env.put, hm]

theorem Env.msa_congr {e e' : Env} (h : e'.msa = e.msa) : e'.msaAddr = e.msaAddr ∧ e'.msaDir = e.msaDir := by
  simp [Env.msaAddr, Env.msaDir, h]

/-- No `CTRL` changes the address or the direction. -/
theorem Env.ctrl_msa {e e' : Env} {c : Ctrl} (h : e.ctrl c = some e') :
    e'.msaAddr = e.msaAddr ∧ e'.msaDir = e.msaDir := by
  obtain ⟨-, -, hmsa, -⟩ := Env.ctrl_keeps h
  exact Env.msa_congr hmsa

/-- R121: a `BURST_START` opens a write transaction with the byte in `MDR`. -/
theorem Env.ctrl_burstStart_opn {e e' : Env} (hm : e.mode = .reference) (h : e.ctrl .burstStart = some e') :
    e'.opn = some ⟨e.msaAddr, [e.mdr]⟩ := by
  simp only [Env.ctrl, hm, Env.refBurstStart] at h
  split at h
  · cases h; rfl
  · cases h

theorem inStep_of_phase_zero {e : Env} {b : Block} (hp : b.ph = 0#3) : e.inStep b = true := by
  simp [inStep_iff, hp]

theorem inStep_afterPoll (e : Env) (b : Block) : e.afterPoll.inStep b = e.inStep b := by
  simp [Env.inStep, Env.msaAddr, Env.msaDir]

/-- The phase after a poll asks nothing of the controller that the phase before did not. -/
theorem inStep_nextPhase_of_poll {e : Env} {b : Block} (hp : b.ph = 3#3 ∨ b.ph = 6#3) (h : e.inStep b = true) :
    e.inStep b.nextPhase = true := by
  rw [inStep_iff] at h ⊢
  rcases hp with hp | hp <;> simp_all

theorem endTransaction_ph (c : Config) (b : Block) : (endTransaction c b).ph = 0#3 := by
  unfold endTransaction
  split
  · rfl
  · obtain ⟨-, -, -, -, -, -, -, hph⟩ := Block.advance_keeps _ _
    exact hph

/-- Every sequencer step keeps the reference controller in step with the block. -/
theorem inStep_exec_currentOp {s t : State} {i : Instr} (hop : currentOp s.cfg s.block = some i)
    (h : exec i s = .next t) (hm : s.env.mode = .reference) (hin : s.env.inStep s.block = true) :
    t.env.inStep t.block = true := by
  have poll (hp : s.block.ph = 3#3 ∨ s.block.ph = 6#3) (h : exec .poll s = .next t) :
      t.env.inStep t.block = true := by
    obtain ⟨he, hb⟩ := exec_poll_next h
    rw [he, inStep_afterPoll, hb]
    cases s.env.busyAnswer with
    | true => exact hin
    | false =>
      rw [Block.afterPoll_false]
      split
      · exact inStep_of_phase_zero (endTransaction_ph _ _)
      · exact inStep_nextPhase_of_poll hp hin
  have hin' := inStep_iff.1 hin
  cases phaseOp_of_currentOp hop with
  | address hp =>
    cases h
    simp [inStep_iff, hp, Env.setAddr_reference hm]
  | putRegister hp =>
    cases h
    have := Env.msa_congr (s.env.put_msa s.block.tra)
    simp_all [inStep_iff, Env.put_reference hm]
  | firstCtrl hp =>
    rw [exec_ctrlInstr] at h
    obtain ⟨e, he, rfl⟩ := emitCtrl_next h
    have := Env.ctrl_msa he
    have hopen (hk : s.block.tk = .send) : e.opn = some ⟨s.block.tsa, [s.block.tra]⟩ := by
      rw [Block.phaseTwoCtrl, hk] at he
      have := Env.ctrl_burstStart_opn hm he
      simp_all
    simp_all [inStep_iff]
  | firstPoll hp => exact poll (.inl hp) h
  | turnAround hp hk =>
    cases h
    simp [inStep_iff, hp, hk, Env.setAddr_reference hm]
  | putData hp hk =>
    cases h
    have := Env.msa_congr (s.env.put_msa s.block.twd)
    simp_all [inStep_iff, Env.put_reference hm]
  | readCtrl hp hk =>
    rw [exec_ctrlInstr] at h
    obtain ⟨e, he, rfl⟩ := emitCtrl_next h
    have := Env.ctrl_msa he
    simp_all [inStep_iff]
  | finishCtrl hp hk =>
    rw [exec_ctrlInstr] at h
    obtain ⟨e, he, rfl⟩ := emitCtrl_next h
    have := Env.ctrl_msa he
    simp_all [inStep_iff]
  | secondPoll hp => exact poll (.inr hp) h
  | getByte hp hk =>
    rw [(exec_get_next h).2]
    exact inStep_of_phase_zero (endTransaction_ph _ _)

/-! ### No fault -/

/-- In these cases the reference controller has a step for a `CTRL`; in the free environment there always is one. -/
theorem Env.ctrl_isSome {e : Env} {c : Ctrl}
    (h : e.mode = .reference → c = .single ∨ (e.msaDir = .write ∧ (c = .burstFinish → ∃ o, e.opn = some o))) :
    ∃ e', e.ctrl c = some e' := by
  unfold Env.ctrl
  split
  · exact ⟨_, rfl⟩
  · next hm =>
    cases c with
    | burstStart =>
      obtain ⟨hdir, -⟩ := (h hm).resolve_left nofun
      simp [Env.refBurstStart, hdir]
    | burstFinish =>
      obtain ⟨hdir, hopen⟩ := (h hm).resolve_left nofun
      obtain ⟨o, ho⟩ := hopen rfl
      simp [Env.refBurstFinish, hdir, ho]
    | single =>
      simp only [Env.refSingle]
      split <;> exact ⟨_, rfl⟩

theorem emitCtrl_isNext {c : Ctrl} {w : Encoded} {s : State} (h : ∃ e, s.env.ctrl c = some e) :
    ∃ t, emitCtrl c w s = .next t := by
  obtain ⟨e, he⟩ := h
  exact ⟨_, by rw [emitCtrl, he]⟩

/-- What the sequencer emits in a state that meets the invariant answers a next state. -/
theorem exec_currentOp_isNext {s : State} {i : Instr} (hs : stateInv s = true) (hb : s.block.busy = true)
    (hop : currentOp s.cfg s.block = some i) : ∃ t, exec i s = .next t := by
  obtain ⟨hwf, -, -, hin, -⟩ := stateInv_iff.1 hs
  have hstep (hm : s.env.mode = .reference) := inStep_iff.1 (hin hb hm)
  cases phaseOp_of_currentOp hop with
  | firstCtrl hp =>
    rw [exec_ctrlInstr]
    refine emitCtrl_isNext (Env.ctrl_isSome fun hm => .inr ⟨?_, fun hc => ?_⟩)
    · obtain ⟨hmsa, -⟩ := hstep hm
      simpa [hp] using (hmsa (by simp [hp])).2
    · cases hk : s.block.tk <;> simp only [Block.phaseTwoCtrl, hk] at hc
      · obtain ⟨-, -, -, hlegal⟩ := Config.wf_conditions hwf
        exact absurd hc hlegal
      · cases hc
  | readCtrl hp hk =>
    rw [exec_ctrlInstr]
    exact emitCtrl_isNext (Env.ctrl_isSome fun _ => .inl rfl)
  | finishCtrl hp hk =>
    rw [exec_ctrlInstr]
    refine emitCtrl_isNext (Env.ctrl_isSome fun hm => .inr ?_)
    obtain ⟨hmsa, -, -, hopen⟩ := hstep hm
    exact ⟨by simpa [hk] using (hmsa (by simp [hp])).2, fun _ => ⟨_, hopen hk (by simp [hp]) (by simp [hp])⟩⟩
  | _ => exact ⟨_, rfl⟩

theorem sequencerTurn_isNext {s : State} (hs : stateInv s = true) : ∃ t, sequencerTurn s = .next t := by
  unfold sequencerTurn
  split
  · next hb =>
    obtain ⟨-, -, hrun, -, -⟩ := stateInv_iff.1 hs
    obtain ⟨-, -, -, -, -, hph⟩ := runningOk_iff.1 (hrun hb)
    obtain ⟨i, hop⟩ := currentOp_isSome (c := s.cfg) hph
    obtain ⟨t, ht⟩ := exec_currentOp_isNext hs hb hop
    exact ⟨t, by rw [sequencerStep, hop]; exact ht⟩
  · exact ⟨s, rfl⟩

theorem hostWrite_isNext (n : Nat) (w : Word) (s : State) : ∃ t, hostWrite n w s = .next t :=
  (hostWrite_withBlock n w s).imp' _ fun _ h => h

theorem hostMove_isNext (m : HostMove) (s : State) : ∃ t, hostMove m s = .next t := by
  cases m with
  | write n w =>
    simp only [hostMove]
    split
    · exact ⟨_, rfl⟩
    · exact hostWrite_isNext n w s
  | _ => exact ⟨_, rfl⟩

/-- Settles O41: a host move always answers a next state, and so does what the sequencer emits under the invariant,
which keeps a send out of phase 7 and the reference controller in step. -/
theorem neverStops : Obligations.NeverStops := by
  intro s hs
  have hseq (rest : List Turn) : ∃ t, sequencerTurn { s with turns := rest } = .next t := sequencerTurn_isNext hs
  unfold step nextStep
  split
  · split
    · unfold takeTurnHeld
      split
      · exact hostMove_isNext _ _
      · exact hseq _
      · exact hseq s.turns
    · exact hostWrite_isNext _ _ _
  · unfold takeTurn
    split
    · exact hseq s.turns
    · exact hseq _
    · exact hostMove_isNext _ _

/-! ### The kind of a command's transactions -/

/-- The kind of a transaction (R131). -/
def Transaction.kind : Transaction → Kind
  | .receive _ _ => .receive
  | .send _ _ _ => .send

/-- The kind of all transactions of a command (R182). -/
def transactionKind : Instr → Kind
  | .sendb _ _ _ => .send
  | .wrreg _ => .send
  | .wrarr _ _ _ => .send
  | .wrbank _ => .send
  | _ => .receive

theorem kind_of_mem_transactionsOf {c : Config} {b : Block} {i : Instr} {t : Transaction}
    (h : t ∈ transactionsOf c b i) : t.kind = transactionKind i := by
  cases i with
  | recvb sa ra => simp_all [transactionsOf, recvbTransactions, Transaction.kind, transactionKind]
  | sendb sa ra d => simp_all [transactionsOf, sendbTransactions, Transaction.kind, transactionKind]
  | rdreg ra => simp_all [transactionsOf, rdregTransactions, Transaction.kind, transactionKind]
  | wrreg ra =>
    simp only [transactionsOf, wrregTransactions] at h
    split at h <;> simp_all [Transaction.kind, transactionKind]
  | rdpair ra =>
    simp only [transactionsOf, rdpairTransactions] at h
    split at h
    · simp at h
    · rcases List.mem_pair.1 h with rfl | rfl <;> rfl
  | rdarr ra idx => simp_all [transactionsOf, rdarrTransactions, Transaction.kind, transactionKind]
  | wrarr ra idx d => simp_all [transactionsOf, wrarrTransactions, Transaction.kind, transactionKind]
  | rdbank ra =>
    simp only [transactionsOf, rdbankTransactions] at h
    split at h
    · simp at h
    · obtain ⟨k, -, rfl⟩ := List.mem_map.1 h; rfl
  | wrbank ra =>
    simp only [transactionsOf, wrbankTransactions] at h
    split at h
    · simp at h
    · obtain ⟨k, -, rfl⟩ := List.mem_map.1 h; rfl
  | _ => simp [transactionsOf] at h

theorem tk_of_holds {b : Block} {t : Transaction} (h : b.holds t = true) : b.tk = t.kind := by
  cases t <;> simp_all [Block.holds, Transaction.kind]

/-! ### How many transactions the running command has -/

/-- The number of transactions of the command in `CW` (R182). -/
def Block.transactionCount (c : Config) (b : Block) : Nat :=
  match decodeCommand b.cw with
  | .error _ => 0
  | .ok i => (transactionsOf c b i).length

theorem transactionCount_of_decode {c : Config} {b : Block} {i : Instr} (hd : decodeCommand b.cw = .ok i) :
    b.transactionCount c = (transactionsOf c b i).length := by
  simp only [Block.transactionCount, hd]

theorem work_of_busy {c : Config} {b : Block} (hb : b.busy = true) :
    b.work c = (b.transactionCount c - b.ec.toNat) * phasesOf b.tk - b.ph.toNat := by
  cases hd : decodeCommand b.cw <;> simp [Block.work, Block.transactionCount, hb, hd]

theorem work_of_idle {c : Config} {b : Block} (hb : b.busy = false) : b.work c = 0 := by
  simp [Block.work, hb]

theorem ec_lt_transactionCount {c : Config} {b : Block} (h : b.runningOk c = true) :
    b.ec.toNat < b.transactionCount c := by
  obtain ⟨i, t, hd, ht, -, -⟩ := runningOk_iff.1 h
  rw [transactionCount_of_decode hd]
  exact (List.getElem?_eq_some_iff.1 ht).1

theorem transactionCount_le {c : Config} (hw : c.wf = true) (b : Block) : b.transactionCount c ≤ 24 := by
  unfold Block.transactionCount
  split
  · omega
  · exact transactionsOf_length_le hw _ _

/-! ### The next phase -/

theorem phasesOf_le (k : Kind) : phasesOf k ≤ 8 := by
  cases k <;> simp [phasesOf]

theorem nextPhase_ph_toNat {b : Block} (h : b.ph.toNat + 1 < phasesOf b.tk) :
    b.nextPhase.ph.toNat = b.ph.toNat + 1 := by
  have := phasesOf_le b.tk
  simp only [Block.nextPhase_ph, BitVec.toNat_add, BitVec.toNat_ofNat]
  omega

theorem transactionsOf_nextPhase (c : Config) (b : Block) (i : Instr) :
    transactionsOf c b.nextPhase i = transactionsOf c b i :=
  transactionsOf_congr c i rfl rfl

theorem transactionCount_nextPhase (c : Config) (b : Block) :
    b.nextPhase.transactionCount c = b.transactionCount c := by
  simp only [Block.transactionCount, Block.nextPhase_cw, transactionsOf_nextPhase]

theorem runningOk_nextPhase {c : Config} {b : Block} (h : b.runningOk c = true)
    (hp : b.ph.toNat + 1 < phasesOf b.tk) : b.nextPhase.runningOk c = true := by
  obtain ⟨i, t, hd, ht, hh, -⟩ := runningOk_iff.1 h
  refine runningOk_iff.2 ⟨i, t, hd, by simpa [transactionsOf_nextPhase] using ht, by cases t <;> exact hh, ?_⟩
  intro hk h7
  have hph := nextPhase_ph_toNat hp
  rw [Block.nextPhase_tk] at hk
  simp only [h7, hk, phasesOf, BitVec.toNat_ofNat] at hph hp
  omega

/-! ### The end of a transaction -/

theorem transactionsOf_setRd (c : Config) (b : Block) (x : Byte) (i : Instr) :
    transactionsOf c { b with rd := x } i = transactionsOf c b i :=
  transactionsOf_congr c i rfl rfl

/-- The byte of a `GET` is no part of what the invariant says of a running command. -/
theorem runningOk_setRd {c : Config} {b : Block} (x : Byte) (h : b.runningOk c = true) :
    { b with rd := x }.runningOk c = true := by
  obtain ⟨i, t, hd, ht, hh, hp⟩ := runningOk_iff.1 h
  exact runningOk_iff.2 ⟨i, t, hd, by rwa [transactionsOf_setRd], by cases t <;> exact hh, hp⟩

theorem transactionCount_setRd (c : Config) (b : Block) (x : Byte) :
    { b with rd := x }.transactionCount c = b.transactionCount c := by
  simp only [Block.transactionCount, transactionsOf_setRd]

/-- `b'` runs the transaction after the one that `b` runs, of the same command and so of the same kind. -/
structure Block.NextTransaction (c : Config) (b b' : Block) : Prop where
  running : b'.runningOk c = true
  count : b'.transactionCount c = b.transactionCount c
  ec : b'.ec.toNat = b.ec.toNat + 1
  tk : b'.tk = b.tk
  busy : b'.busy = b.busy
  done : b'.done = b.done
  err : b'.err = b.err

/-- R139: what the end of transaction `EC` of a running command does. After the last one the command ends; after another
one the next transaction starts. -/
theorem endTransaction_running {c : Config} {b : Block} (hw : c.wf = true) (hr : b.runningOk c = true) :
    (b.ec.toNat + 1 = b.transactionCount c ∧ ∃ i, endTransaction c b = (collect c i b).finish) ∨
    b.NextTransaction c (endTransaction c b) := by
  obtain ⟨i, t, hd, ht, hh, -⟩ := runningOk_iff.1 hr
  obtain ⟨-, hcw, hbusy, hdone, herr, hec, -, -⟩ := collect_keeps c i b
  have hlen := transactionsOf_length_le hw b i
  have hlt := (List.getElem?_eq_some_iff.1 ht).1
  rw [endTransaction_command hd]
  cases hn : (transactionsOf c b i)[b.ec.toNat + 1]? with
  | none =>
    have := List.getElem?_eq_none_iff.1 hn
    exact .inl ⟨by rw [transactionCount_of_decode hd]; omega, i, rfl⟩
  | some t' =>
    have hlt' := (List.getElem?_eq_some_iff.1 hn).1
    simp only [Block.advance]
    generalize hb' : Block.start _ t' = b'
    have hd' : decodeCommand b'.cw = .ok i := by simpa [← hb', hcw] using hd
    have htrans : transactionsOf c b' i = transactionsOf c b i :=
      (transactionsOf_congr c i (by simp [← hb']) (by simp [← hb'])).trans (transactionsOf_collect c i b)
    have hec' : b'.ec.toNat = b.ec.toNat + 1 := by
      simp only [← hb', Block.start_ec, hec, BitVec.toNat_add, BitVec.toNat_ofNat]
      omega
    have hholds : b'.holds t' = true := hb' ▸ Block.start_holds _ t'
    have htk : b'.tk = b.tk := by
      rw [tk_of_holds hh, tk_of_holds hholds, kind_of_mem_transactionsOf (List.mem_of_getElem? ht),
        kind_of_mem_transactionsOf (List.mem_of_getElem? hn)]
    exact .inr
      { running := runningOk_iff.2 ⟨i, t', hd', by rw [htrans, hec', hn], hholds, by simp [← hb']⟩
        count := by rw [transactionCount_of_decode hd', transactionCount_of_decode hd, htrans]
        ec := hec'
        tk := htk
        busy := by simp [← hb', hbusy]
        done := by simp [← hb', hdone]
        err := by simp [← hb', herr] }

/-! ### The sequencer keeps the invariant -/

/-- After a sequencer step the command still runs, with the same flags, or it has ended. -/
theorem exec_currentOp_runs_or_ends {s t : State} {i : Instr} (hw : s.cfg.wf = true)
    (hr : s.block.runningOk s.cfg = true) (hop : currentOp s.cfg s.block = some i) (h : exec i s = .next t) :
    (t.block.runningOk s.cfg = true ∧ t.block.busy = s.block.busy ∧ t.block.done = s.block.done ∧
      t.block.err = s.block.err) ∨
    (t.block.busy = false ∧ t.block.done = true ∧ t.block.err = s.block.err ∧ t.block.ec = 0#5 ∧ t.block.ph = 0#3) := by
  obtain ⟨-, hb⟩ | ⟨-, hp, hb⟩ | ⟨-, -, x, hb⟩ := exec_currentOp_block hop h <;> rw [hb]
  · exact .inl ⟨hr, rfl, rfl, rfl⟩
  · exact .inl ⟨runningOk_nextPhase hr hp, rfl, rfl, rfl⟩
  · obtain ⟨-, j, hend⟩ | hnext := endTransaction_running hw (runningOk_setRd x hr)
    · obtain ⟨-, -, -, -, herr, -, -, -⟩ := collect_keeps s.cfg j { s.block with rd := x }
      rw [hend]
      exact .inr ⟨rfl, rfl, herr, rfl, rfl⟩
    · exact .inl ⟨hnext.running, hnext.busy, hnext.done, hnext.err⟩

theorem stateInv_exec_currentOp {s t : State} {i : Instr} (hs : stateInv s = true) (hb : s.block.busy = true)
    (hop : currentOp s.cfg s.block = some i) (h : exec i s = .next t) : stateInv t = true := by
  obtain ⟨hw, hflags, hrun, hin, hslv⟩ := stateInv_iff.1 hs
  obtain ⟨hdone, herr, -⟩ := flagsOk_iff.1 hflags
  have hmicro := currentOp_microOp hop
  have hcfg := (exec_microOp_frame hmicro h).1
  have hmode := exec_microOp_mode hmicro h
  refine stateInv_iff.2 ⟨hcfg ▸ hw, flagsOk_iff.2 ?_, fun hb' => ?_, fun _ hm => ?_,
    (exec_microOp_keeps_device hmicro h).2 hslv⟩
  · obtain ⟨-, hb', hd', he'⟩ | ⟨hb', hd', he', hec, hph⟩ := exec_currentOp_runs_or_ends hw (hrun hb) hop h
    · simp_all
    · simp_all
  · obtain ⟨hr', -⟩ | ⟨hidle, -⟩ := exec_currentOp_runs_or_ends hw (hrun hb) hop h
    · rwa [hcfg]
    · simp [hidle] at hb'
  · have hm' := hmode.symm.trans hm
    exact inStep_exec_currentOp hop h hm' (hin hb hm')

/-- R28, R130: a sequencer step that is no `POLL` answered busy takes one phase off the work left. -/
theorem exec_currentOp_work {s t : State} {i : Instr} (hs : stateInv s = true) (hb : s.block.busy = true)
    (hop : currentOp s.cfg s.block = some i) (h : exec i s = .next t) (hpoll : s.pollsBusy = false) :
    t.block.work s.cfg + 1 = s.block.work s.cfg := by
  obtain ⟨hw, -, hrun, -, -⟩ := stateInv_iff.1 hs
  have hr := hrun hb
  have hec := ec_lt_transactionCount hr
  obtain ⟨n, hn⟩ := Nat.exists_eq_add_one.2 (Nat.sub_pos_of_lt hec)
  rw [work_of_busy hb, hn, Nat.add_one_mul]
  obtain ⟨hpoll', -⟩ | ⟨-, hp, ht⟩ | ⟨-, hp, x, ht⟩ := exec_currentOp_block hop h
  · simp [hpoll] at hpoll'
  · rw [ht, work_of_busy (b := s.block.nextPhase) hb, transactionCount_nextPhase, nextPhase_ph_toNat hp,
      Block.nextPhase_ec, hn, Block.nextPhase_tk, Nat.add_one_mul]
    omega
  · obtain ⟨hlast, j, hend⟩ | hnext := endTransaction_running hw (runningOk_setRd x hr)
    · rw [transactionCount_setRd] at hlast
      rw [ht, hend, work_of_idle rfl]
      obtain rfl : n = 0 := by simp only at hlast; omega
      omega
    · rw [ht, work_of_busy (hnext.busy.trans hb), hnext.count, transactionCount_setRd, hnext.ec, hnext.tk,
        endTransaction_ph,
        ← Nat.sub_sub, hn, Nat.add_sub_cancel]
      simp only [BitVec.toNat_ofNat]
      omega

/-! ### A running command and a quiet host -/

/-- A command runs, the host makes no move, and the invariant holds. -/
structure State.RunsQuietly (s : State) : Prop where
  inv : stateInv s = true
  busy : s.block.busy = true
  quiet : s.turns = []

/-- Some number of steps ends the command. -/
def State.Ends (s : State) : Prop :=
  ∃ n t, run n s = .next t ∧ t.block.busy = false ∧ t.block.done = true

theorem run_succ_of_step {s t : State} (h : step s = .next t) (n : Nat) : run (n + 1) s = run n t := by
  simp only [run, h]

theorem State.Ends.of_step {s t : State} (h : step s = .next t) (ht : t.Ends) : s.Ends := by
  obtain ⟨n, u, hrun, hu⟩ := ht
  exact ⟨n + 1, u, (run_succ_of_step h n).trans hrun, hu⟩

/-- With a quiet host the step of a running block is the sequencer's, whether or not a write is held. -/
theorem step_of_quiet {s : State} (hb : s.block.busy = true) (hq : s.turns = []) : step s = sequencerStep s := by
  unfold step nextStep
  split
  · rw [if_pos hb, takeTurnHeld, hq, sequencerTurn, if_pos hb]
  · rw [takeTurn, hq]
    simp only [sequencerTurn, hb, if_true]

/-- A step of a running block with a quiet host is what the sequencer emits. -/
theorem State.RunsQuietly.step_iff {s t : State} (hs : s.RunsQuietly) :
    step s = .next t ↔ ∃ i, currentOp s.cfg s.block = some i ∧ exec i s = .next t := by
  rw [step_of_quiet hs.busy hs.quiet, sequencerStep]
  cases currentOp s.cfg s.block <;> simp

/-- After such a step the command still runs, or it has ended. -/
theorem State.RunsQuietly.next {s t : State} (hs : s.RunsQuietly) (h : step s = .next t) :
    t.RunsQuietly ∨ (t.block.busy = false ∧ t.block.done = true) := by
  obtain ⟨i, hop, he⟩ := hs.step_iff.1 h
  obtain ⟨hw, -, hrun, -, -⟩ := stateInv_iff.1 hs.inv
  obtain ⟨-, hbusy, -⟩ | ⟨hbusy, hdone, -⟩ := exec_currentOp_runs_or_ends hw (hrun hs.busy) hop he
  · exact .inl ⟨stateInv_exec_currentOp hs.inv hs.busy hop he, hbusy.trans hs.busy,
      (exec_microOp_frame (currentOp_microOp hop) he).2.1.trans hs.quiet⟩
  · exact .inr ⟨hbusy, hdone⟩

/-- R132: a `POLL` leaves the environment as `Env.afterPoll` says. -/
theorem exec_currentOp_env_of_poll {s t : State} {i : Instr} (hop : currentOp s.cfg s.block = some i)
    (h : exec i s = .next t) (hp : s.block.ph = 3#3 ∨ s.block.ph = 6#3) : t.env = s.env.afterPoll := by
  have hphase := phaseOp_of_currentOp hop
  by_cases hi : i = .poll
  · subst hi
    exact (exec_poll_next h).1
  · by_cases hg : i = .get
    · subst hg
      have := hphase.of_get
      simp_all
    · have := hphase.of_other hi hg
      simp_all

theorem pollsBusy_iff {s : State} :
    s.pollsBusy = true ↔ (s.block.ph = 3#3 ∨ s.block.ph = 6#3) ∧ s.env.busyAnswer = true := by
  simp [State.pollsBusy]

/-- After a `POLL` answered busy the command still runs, and only the environment's answers have moved. -/
theorem State.RunsQuietly.next_of_pollsBusy {s t : State} (hs : s.RunsQuietly) (h : step s = .next t)
    (hp : s.pollsBusy = true) : t.RunsQuietly ∧ t.block = s.block ∧ t.env = s.env.afterPoll := by
  obtain ⟨i, hop, he⟩ := hs.step_iff.1 h
  have hblock : t.block = s.block := by
    obtain ⟨-, hb⟩ | ⟨hp', -⟩ | ⟨hp', -⟩ := exec_currentOp_block hop he
    · exact hb
    · simp [hp] at hp'
    · simp [hp] at hp'
  refine ⟨?_, hblock, exec_currentOp_env_of_poll hop he (pollsBusy_iff.1 hp).1⟩
  obtain hrun | ⟨hidle, -⟩ := hs.next h
  · exact hrun
  · simp [hblock, hs.busy] at hidle

/-- Any other step takes one phase off the work left. -/
theorem State.RunsQuietly.work_next {s t : State} (hs : s.RunsQuietly) (h : step s = .next t)
    (hp : s.pollsBusy = false) : t.block.work t.cfg + 1 = s.block.work s.cfg := by
  obtain ⟨i, hop, he⟩ := hs.step_iff.1 h
  rw [(parametersNeverChange s t h).1]
  exact exec_currentOp_work hs.inv hs.busy hop he hp

/-! ### The termination argument

For any property `P` of states that steps keep while the command runs, and that makes every busy-wait end. -/

section
variable {P : State → Prop}
  (keep : ∀ s t, s.RunsQuietly → P s → step s = .next t → t.RunsQuietly → P t)
include keep

/-- A busy-wait that is answered 0 after at most `m` `POLL`s comes to a step that does work. -/
theorem leaves_busyWait (m : Nat) {s : State} (hs : s.RunsQuietly) (hP : P s)
    (hm : s.block.ph = 3#3 ∨ s.block.ph = 6#3 → (s.env.afterPolls m).busyAnswer = false) :
    ∃ t : State, t.RunsQuietly ∧ P t ∧ t.pollsBusy = false ∧ t.block.work t.cfg = s.block.work s.cfg ∧
      (t.Ends → s.Ends) := by
  induction m generalizing s with
  | zero =>
    refine ⟨s, hs, hP, Bool.eq_false_iff.2 fun hp => ?_, rfl, id⟩
    obtain ⟨hph, hbusy⟩ := pollsBusy_iff.1 hp
    exact Bool.false_ne_true ((hm hph).symm.trans hbusy)
  | succ m ih =>
    cases hp : s.pollsBusy with
    | false => exact ⟨s, hs, hP, hp, rfl, id⟩
    | true =>
      obtain ⟨t, ht⟩ := neverStops s hs.inv
      obtain ⟨hrun, hblock, henv⟩ := hs.next_of_pollsBusy ht hp
      obtain ⟨u, hu, hPu, hpu, hwork, hends⟩ :=
        ih hrun (keep s t hs hP ht hrun) fun hph => by rw [henv]; exact hm (hblock ▸ hph)
      exact ⟨u, hu, hPu, hpu, by rw [hwork, hblock, (parametersNeverChange s t ht).1], fun h => .of_step ht (hends h)⟩

/-- By induction on the work left. -/
theorem ends_of_waitEnds
    (waits : ∀ s, s.RunsQuietly → P s → s.block.ph = 3#3 ∨ s.block.ph = 6#3 → s.env.waitEnds)
    {s : State} (hs : s.RunsQuietly) (hP : P s) : s.Ends := by
  induction hk : s.block.work s.cfg using Nat.strong_induction_on generalizing s with
  | _ k ih =>
    obtain ⟨m, hm⟩ : ∃ m, s.block.ph = 3#3 ∨ s.block.ph = 6#3 → (s.env.afterPolls m).busyAnswer = false := by
      by_cases hph : s.block.ph = 3#3 ∨ s.block.ph = 6#3
      · exact (waits s hs hP hph).imp fun _ h _ => h
      · exact ⟨0, fun h => absurd h hph⟩
    obtain ⟨t, ht, hPt, hp, hwork, hends⟩ := leaves_busyWait keep m hs hP hm
    obtain ⟨u, hu⟩ := neverStops t ht.inv
    have hless := ht.work_next hu hp
    refine hends (.of_step hu ?_)
    obtain hrun | hend := ht.next hu
    · exact ih _ (by omega) hrun (keep t u ht hPt hu hrun) rfl
    · exact ⟨0, u, rfl, hend⟩

end

/-! ### `BC_LIVE` -/

theorem State.BcLive.of_step {s t : State} (hs : s.BcLive) (h : step s = .next t) : t.BcLive :=
  fun n u hu => hs (n + 1) u ((run_succ_of_step h n).trans hu)

theorem ends_of_bcLive {s : State} (hs : s.RunsQuietly) (hlive : s.BcLive) : s.Ends :=
  ends_of_waitEnds (fun _ _ _ hP h _ => hP.of_step h) (fun s hs hP hph => hP 0 s rfl hs.busy hph) hs hlive

/-! ### Scripted answers -/

/-- How many of a transaction's two busy-waits are at phase `p` or still to come. -/
def waitsAhead (p : BitVec 3) : Nat :=
  if p.toNat ≤ 3 then 2 else if p.toNat ≤ 6 then 1 else 0

/-- How many busy-waits the running command still has before it ends. -/
def Block.waitsLeft (c : Config) (b : Block) : Nat :=
  2 * (b.transactionCount c - (b.ec.toNat + 1)) + waitsAhead b.ph

/-- In the free environment, an answer 0 is scripted for each busy-wait the command still has. -/
def State.waitsScripted (s : State) : Prop :=
  s.env.mode = .free ∧ s.block.waitsLeft s.cfg ≤ s.env.draws.busy.count false

/-- R120: a wait ends where an answer 0 is scripted. -/
theorem Env.waitEnds_of_scripted {e : Env} (hm : e.mode = .free) (h : false ∈ e.draws.busy) : e.waitEnds := by
  generalize hl : e.draws.busy = l at h
  induction l generalizing e with
  | nil => cases h
  | cons a rest ih =>
    cases a with
    | false => exact ⟨0, by simp [Env.afterPolls, Env.busyAnswer, hm, Draws.busyValue, hl]⟩
    | true =>
      have hrest : e.afterPoll.draws.busy = rest := by simp [Env.afterPoll, hm, Draws.afterBusy, hl]
      obtain ⟨n, hn⟩ := ih (e := e.afterPoll) (by simpa using hm) hrest (by simpa using h)
      exact ⟨n + 1, hn⟩

/-- A `POLL` takes one answer off the script. -/
theorem Env.count_afterPoll {e : Env} (hm : e.mode = .free) (h : 0 < e.draws.busy.count false) :
    e.afterPoll.draws.busy.count false + (if e.busyAnswer then 0 else 1) = e.draws.busy.count false := by
  simp only [Env.afterPoll, Env.busyAnswer, hm, Draws.afterBusy, Draws.busyValue]
  cases hl : e.draws.busy with
  | nil => simp [hl] at h
  | cons a rest => cases a <;> simp

/-- No micro-operation but `POLL` takes an answer off the script. -/
theorem exec_microOp_script {i : Instr} (hi : i.isCommand = false) (hp : i ≠ .poll) {s t : State}
    (hm : s.env.mode = .free) (h : exec i s = .next t) : t.env.draws.busy = s.env.draws.busy := by
  have ctrl {c : Ctrl} {w : Encoded} (h : emitCtrl c w s = .next t) : t.env.draws.busy = s.env.draws.busy := by
    obtain ⟨e, he, rfl⟩ := emitCtrl_next h
    simp only [Env.ctrl, hm] at he
    cases he
    simp
  cases i with
  | setaddr sa dir => cases h; simp
  | put b => cases h; simp
  | ctrlBurstStart => exact ctrl h
  | ctrlBurstFinish => exact ctrl h
  | ctrlSingle => exact ctrl h
  | poll => exact absurd rfl hp
  | get =>
    rw [(exec_get_next h).1]
    simp only [Env.afterGet, hm, Draws.afterByte]
    split <;> rfl
  | _ => cases hi

theorem waitsAhead_zero : waitsAhead 0#3 = 2 := rfl

theorem waitsAhead_pos {p : BitVec 3} (hp : p = 3#3 ∨ p = 6#3) : 0 < waitsAhead p := by
  rcases hp with rfl | rfl <;> decide

/-- The next phase has one wait less ahead exactly where the phase is a wait. -/
theorem waitsAhead_succ {p : BitVec 3} (hp : p ≠ 7#3) :
    waitsAhead (p + 1#3) + (if p = 3#3 ∨ p = 6#3 then 1 else 0) = waitsAhead p := by
  revert p
  decide

/-- In the last phase of a transaction, the one wait that may be ahead is that phase itself. -/
theorem waitsAhead_last {p : BitVec 3} {k : Kind} (hp : p.toNat + 1 = phasesOf k) :
    waitsAhead p = if p = 3#3 ∨ p = 6#3 then 1 else 0 := by
  revert p
  cases k <;> decide

/-- A sequencer step that is no `POLL` answered busy, and after which the command still runs, leaves one busy-wait less
if it ends one, and as many if not. -/
theorem exec_currentOp_waitsLeft {s t : State} {i : Instr} (hs : s.RunsQuietly)
    (hop : currentOp s.cfg s.block = some i) (h : exec i s = .next t) (hpoll : s.pollsBusy = false)
    (hb : t.block.busy = true) :
    t.block.waitsLeft s.cfg + (if s.block.ph = 3#3 ∨ s.block.ph = 6#3 then 1 else 0) = s.block.waitsLeft s.cfg := by
  obtain ⟨hw, -, hrun, -, -⟩ := stateInv_iff.1 hs.inv
  have hr := hrun hs.busy
  unfold Block.waitsLeft
  obtain ⟨hpoll', -⟩ | ⟨-, hp, ht⟩ | ⟨-, hp, x, ht⟩ := exec_currentOp_block hop h
  · simp [hpoll] at hpoll'
  · have h7 : s.block.ph ≠ 7#3 := fun h7 => by
      have := phasesOf_le s.block.tk
      simp [h7] at hp
      omega
    rw [ht, transactionCount_nextPhase, Block.nextPhase_ec, Block.nextPhase_ph, ← waitsAhead_succ h7, Nat.add_assoc]
  · obtain ⟨-, j, hend⟩ | hnext := endTransaction_running hw (runningOk_setRd x hr)
    · rw [ht, hend] at hb
      cases hb
    · have hlt := ec_lt_transactionCount hnext.running
      rw [hnext.count, hnext.ec, transactionCount_setRd] at hlt
      rw [ht, hnext.count, transactionCount_setRd, hnext.ec, endTransaction_ph, waitsAhead_last hp,
        Nat.add_right_cancel_iff, waitsAhead_zero]
      simp only at hlt ⊢
      omega

/-- A step of a running command keeps an answer 0 scripted for each busy-wait that is left. -/
theorem waitsScripted_next {s t : State} (hs : s.RunsQuietly) (hP : s.waitsScripted) (h : step s = .next t)
    (ht : t.RunsQuietly) : t.waitsScripted := by
  obtain ⟨hm, hwaits⟩ := hP
  refine ⟨(step_mode h).trans hm, ?_⟩
  rw [(parametersNeverChange s t h).1]
  obtain ⟨i, hop, he⟩ := hs.step_iff.1 h
  have hcount (hph : s.block.ph = 3#3 ∨ s.block.ph = 6#3) := by
    have hpos := waitsAhead_pos hph
    have := Env.count_afterPoll hm (by unfold Block.waitsLeft at hwaits; omega)
    rwa [← exec_currentOp_env_of_poll hop he hph] at this
  cases hp : s.pollsBusy with
  | true =>
    obtain ⟨hph, hbusy⟩ := pollsBusy_iff.1 hp
    have := hcount hph
    rw [(hs.next_of_pollsBusy h hp).2.1]
    simp only [hbusy, if_true] at this
    omega
  | false =>
    have hleft := exec_currentOp_waitsLeft hs hop he hp ht.busy
    by_cases hph : s.block.ph = 3#3 ∨ s.block.ph = 6#3
    · have := hcount hph
      have hidle : s.env.busyAnswer = false := by simpa [State.pollsBusy, hph] using hp
      simp only [hidle, hph, if_true, Bool.false_eq_true, if_false] at this hleft
      omega
    · have hi : i ≠ .poll := fun hi => hph (phaseOp_of_currentOp (hi ▸ hop)).of_poll
      rw [exec_microOp_script (currentOp_microOp hop) hi hm he]
      omega

theorem ends_of_waitsScripted {s : State} (hs : s.RunsQuietly) (hP : s.waitsScripted) : s.Ends := by
  refine ends_of_waitEnds (fun s t => waitsScripted_next) (fun s _ hP hph => ?_) hs hP
  obtain ⟨hm, hwaits⟩ := hP
  have := waitsAhead_pos hph
  exact Env.waitEnds_of_scripted hm (List.count_pos_iff.1 (by unfold Block.waitsLeft at hwaits; omega))

/-- R28: the longest command has 48 busy-waits. -/
theorem waitsLeft_le {c : Config} {b : Block} (hw : c.wf = true) (hr : b.runningOk c = true) : b.waitsLeft c ≤ 48 := by
  have hcount := transactionCount_le hw b
  have hec := ec_lt_transactionCount hr
  have hahead : waitsAhead b.ph ≤ 2 := by unfold waitsAhead; split <;> [skip; split] <;> omega
  unfold Block.waitsLeft
  omega

/-- Settles O49: with the host quiet, each step that is no `POLL` answered busy takes a phase off the work left, and a
busy-wait ends by `BC_LIVE`, which the reference environment meets, or because an answer 0 is scripted for it. -/
theorem commandEndsIfLive : Obligations.CommandEndsIfLive := by
  intro s hinv hb hq hcond
  have hs : s.RunsQuietly := ⟨hinv, hb, hq⟩
  rcases hcond with hlive | hanswers
  · exact ends_of_bcLive hs hlive
  · cases hm : s.env.mode with
    | reference => exact ends_of_bcLive hs (State.bcLive_of_reference hm)
    | free =>
      obtain ⟨hw, -, hrun, -, -⟩ := stateInv_iff.1 hinv
      have hscript : 48 ≤ s.env.draws.busy.count false := by simpa [State.answersSuffice, hm] using hanswers
      exact ends_of_waitsScripted hs ⟨hm, (waitsLeft_le hw (hrun hb)).trans hscript⟩

end Sys2Proof.Machine

/-! Proofs of the state family: the invariant (O40, O39, O42), the frame of the accept step (O26), the host port and reset
(O31, O32, O33, O34, O37), and the sequencer (O46, O48). On the way: what an accept step can make of the block
(`AcceptStep`), what a transferred write can (`hostWrite_cases`), and what a step of either agent can
(`step_agent_cases`). -/

namespace Sys2Proof.Machine

/-! ### The host port, number by number (R35) -/

theorem setIfInBounds_eq_set {n : Nat} (f : Vector Byte n) (i : Fin n) (x : Byte) :
    f.setIfInBounds i x = f.set i x := by
  ext j hj
  simp [Vector.getElem_setIfInBounds, Vector.getElem_set]

theorem writePort_view (b : Block) (i : Fin 8) (w : Word) :
    b.writePort (8 + i) w = { b with v := b.v.set i (w.extractLsb' 0 8) } := by
  rw [Block.writePort, if_pos (by omega), Nat.add_sub_cancel_left, setIfInBounds_eq_set]

theorem writePort_buf (b : Block) (i : Fin 24) (w : Word) :
    b.writePort (32 + i) w = { b with buf := b.buf.set i (w.extractLsb' 0 8) } := by
  rw [Block.writePort, if_neg (by omega), if_pos (by omega), Nat.add_sub_cancel_left, setIfInBounds_eq_set]

/-- R41: a number that is neither `V[i]` nor `BUF[i]` takes no write. -/
theorem writePort_other (b : Block) {n : Nat} (w : Word) (hv : ¬ (8 ≤ n ∧ n ≤ 15)) (hb : ¬ (32 ≤ n ∧ n ≤ 55)) :
    b.writePort n w = b := by
  rw [Block.writePort, if_neg hv, if_neg hb]

/-- A write to a number other than `CMD` leaves the control state. -/
theorem writePort_control (b : Block) (n : Nat) (w : Word) :
    (b.writePort n w).busy = b.busy ∧ (b.writePort n w).done = b.done ∧ (b.writePort n w).err = b.err ∧
      (b.writePort n w).ec = b.ec ∧ (b.writePort n w).ph = b.ph := by
  unfold Block.writePort
  split
  · and_intros <;> rfl
  · split <;> and_intros <;> rfl

theorem hostWrite_register (s : State) {n : Nat} (w : Word) (hn : n ≠ 0) :
    hostWrite n w s = .next (s.withBlock (s.block.writePort n w)) := by
  rw [hostWrite, if_neg hn]

theorem readPort_view (b : Block) (i : Fin 8) : b.readPort (8 + i) = b.v[i].zeroExtend 32 := by
  unfold Block.readPort
  rw [if_neg (by omega), if_neg (by omega), if_neg (by omega), if_neg (by omega), if_pos (by omega)]
  simp

theorem readPort_buf (b : Block) (i : Fin 24) : b.readPort (32 + i) = b.buf[i].zeroExtend 32 := by
  unfold Block.readPort
  rw [if_neg (by omega), if_neg (by omega), if_neg (by omega), if_neg (by omega), if_neg (by omega),
    if_pos (by omega)]
  simp

theorem readPort_unmapped (b : Block) {n : Nat} (hn : (3 < n ∧ n < 8) ∨ (15 < n ∧ n < 32) ∨ 55 < n) :
    b.readPort n = 0#32 := by
  unfold Block.readPort
  rw [if_neg (by omega), if_neg (by omega), if_neg (by omega), if_neg (by omega), if_neg (by omega),
    if_neg (by omega)]

/-- R35: the bits of `STATUS`. -/
theorem status_toNat (b : Block) : b.status.toNat = b.busy.toNat + 2 * b.done.toNat + 4 * b.err.code.toNat := by
  unfold Block.status
  cases b.busy <;> cases b.done <;> cases b.err <;> rfl

/-- With no write held, the host makes the move whose turn it is. -/
theorem step_of_host {s : State} {m : HostMove} {rest : List Turn} (hh : s.held = none)
    (ht : s.turns = .host m :: rest) : step s = hostMove m { s with turns := rest } := by
  simp only [step, nextStep, hh, takeTurn, ht]

/-- R39: a held write transfers as soon as `BUSY` is 0. -/
theorem step_of_held {s : State} {h : HostWrite} (hb : s.block.busy = false) (hh : s.held = some h) :
    step s = hostWrite h.num h.word { s with held := none } := by
  simp [step, nextStep, hh, hb]

/-- Settles O32: the number picks the register in `writePort`. -/
theorem hostWritesRegister : Obligations.HostWritesRegister := by
  refine fun s w => ⟨fun i => ?_, fun i => ?_⟩
  · rw [hostWrite_register s w (by omega), writePort_view]
    rfl
  · rw [hostWrite_register s w (by omega), writePort_buf]
    rfl

/-- Settles O33: these numbers are in neither writable range, and the unmapped ones in no readable one. -/
theorem readOnlyAndUnmapped : Obligations.ReadOnlyAndUnmapped := by
  intro s n
  refine ⟨fun w hn => ?_, readPort_unmapped s.block⟩
  rw [hostWrite_register s w (by omega), writePort_other _ w (by omega) (by omega), State.withBlock_self]

/-- Settles O34: a read is the host's move whatever `BUSY` is, and each number reads back its register. -/
theorem hostReads : Obligations.HostReads :=
  ⟨fun _ _ _ hh ht => step_of_host hh ht,
    fun b => ⟨rfl, status_toNat b, rfl, rfl, readPort_view b, readPort_buf b⟩⟩

/-- Settles O37: the control state is what `Block.reset` says, and with `BUSY` 0 a quiet step is idle. -/
theorem resetState : Obligations.ResetState := by
  intro c s
  have hstatus : s.block.status = 0#32 := BitVec.eq_of_toNat_eq (status_toNat s.block)
  exact ⟨rfl, rfl, rfl, rfl, rfl, rfl, hstatus, rfl, rfl, rfl⟩

/-! ### The accept step of a command (R81) -/

/-- R85: the word of a command decodes to the command. -/
theorem decodeCommand_encode {i : Instr} (hi : i.isCommand = true) :
    ∃ w, encode i = .command w ∧ decodeCommand w = .ok i := by
  cases i with
  | recvb _ _ | sendb _ _ _ =>
    exact ⟨_, rfl, by simp [decodeCommand, requireZero, opField_formatT, z1Field_formatT, z2Field_formatT,
      saField_formatT, raField_formatT, dField_formatT]⟩
  | setaddr _ _ | put _ | ctrlBurstStart | ctrlBurstFinish | ctrlSingle | poll | get => cases hi
  | _ =>
    exact ⟨_, rfl, by simp [decodeCommand, requireZero, opField_formatR, z1Field_formatR, idxField_formatR,
      raField_formatR, dField_formatR]⟩

/-- What the accept step of a command can make of the block of `s`: a refusal, one of the two commands carried out at
once, or the start of the command's first transaction. -/
inductive AcceptStep (s : State) : Instr → Block → Prop
  | refused {i : Instr} {e : ErrCode} (h : refusalOf s.cfg i = some e) :
      AcceptStep s i ((s.block.latch (encode i)).raise e)
  | decoded {ra d : Byte} {fs : List Field} (h : fieldsOf s.cfg ra = some fs) :
      AcceptStep s (.dec ra d) ((s.block.latch (encode (.dec ra d))).setView (decodeFields fs d)).complete
  | encoded {ra : Byte} {fs : List Field} (h : fieldsOf s.cfg ra = some fs) :
      AcceptStep s (.enc ra)
        { s.block.latch (encode (.enc ra)) with rd := encodeFields fs (s.block.view fs.length) }.complete
  | started {i : Instr} {tr : Transaction} (hbus : carriedOutAtOnce i = false) (hok : refusalOf s.cfg i = none)
      (first : s.cfg.wf = true → (transactionsOf s.cfg s.block i)[0]? = some tr) :
      AcceptStep s i ((s.block.latch (encode i)).accept tr)

theorem exec_command_acceptStep {i : Instr} (hi : i.isCommand = true) {s t : State} (h : exec i s = .next t) :
    ∃ b, AcceptStep s i b ∧ t = s.withBlock b := by
  have range_zero {ra : Byte} {e : ArrEntry} (ha : arrayOf s.cfg ra = some e) (hw : s.cfg.wf = true) :
      (List.range e.count)[0]? = some 0 := List.getElem?_range (arrayOf_wf hw ha).1
  cases i with
  | recvb sa ra => cases h; exact ⟨_, .started rfl rfl fun _ => rfl, rfl⟩
  | sendb sa ra d => cases h; exact ⟨_, .started rfl rfl fun _ => rfl, rfl⟩
  | dec ra d =>
    simp only [exec, execDec] at h
    split at h <;> cases h
    · next hf => exact ⟨_, .refused (by simp [refusalOf, hf]), rfl⟩
    · next fs hf => exact ⟨_, .decoded hf, rfl⟩
  | enc ra =>
    simp only [exec, execEnc] at h
    split at h <;> cases h
    · next hf => exact ⟨_, .refused (by simp [refusalOf, hf]), rfl⟩
    · next fs hf => exact ⟨_, .encoded hf, rfl⟩
  | rdreg ra =>
    simp only [exec, execRdreg] at h
    split at h <;> cases h
    · next hf => exact ⟨_, .refused (by simp [refusalOf, hf]), rfl⟩
    · next fs hf => exact ⟨_, .started rfl (by simp [refusalOf, hf]) fun _ => rfl, rfl⟩
  | wrreg ra =>
    simp only [exec, execWrreg] at h
    split at h <;> cases h
    · next hf => exact ⟨_, .refused (by simp [refusalOf, hf]), rfl⟩
    · next fs hf =>
      exact ⟨_, .started rfl (by simp [refusalOf, hf]) fun _ => by
        simp [transactionsOf, wrregTransactions, hf, wrregByte, Block.view], rfl⟩
  | rdpair ra =>
    simp only [exec, execRdpair] at h
    split at h <;> cases h
    · next hp => exact ⟨_, .refused (by simp [refusalOf, hp]), rfl⟩
    · next p hp =>
      exact ⟨_, .started rfl (by simp [refusalOf, hp]) fun _ => by simp [transactionsOf, rdpairTransactions, hp], rfl⟩
  | rdarr ra idx =>
    simp only [exec, execRdarr] at h
    split at h
    · next ha => cases h; exact ⟨_, .refused (by simp [refusalOf, ha]), rfl⟩
    · next e ha =>
      split at h <;> cases h
      · next hidx => exact ⟨_, .started rfl (by simpa [refusalOf, ha, indexLegal] using hidx) fun _ => rfl, rfl⟩
      · next hidx => exact ⟨_, .refused (by simpa [refusalOf, ha, indexLegal] using hidx), rfl⟩
  | wrarr ra idx d =>
    simp only [exec, execWrarr] at h
    split at h
    · next ha => cases h; exact ⟨_, .refused (by simp [refusalOf, ha]), rfl⟩
    · next e ha =>
      split at h <;> cases h
      · next hidx => exact ⟨_, .started rfl (by simpa [refusalOf, ha, indexLegal] using hidx) fun _ => rfl, rfl⟩
      · next hidx => exact ⟨_, .refused (by simpa [refusalOf, ha, indexLegal] using hidx), rfl⟩
  | rdbank ra =>
    simp only [exec, execRdbank] at h
    split at h <;> cases h
    · next ha => exact ⟨_, .refused (by simp [refusalOf, ha]), rfl⟩
    · next e ha =>
      exact ⟨_, .started rfl (by simp [refusalOf, ha]) fun hw => by
        simp [transactionsOf, rdbankTransactions, ha, range_zero ha hw], rfl⟩
  | wrbank ra =>
    simp only [exec, execWrbank] at h
    split at h <;> cases h
    · next ha => exact ⟨_, .refused (by simp [refusalOf, ha]), rfl⟩
    · next e ha =>
      exact ⟨_, .started rfl (by simp [refusalOf, ha]) fun hw => by
        simp [transactionsOf, wrbankTransactions, ha, range_zero ha hw, Block.bufAt], rfl⟩
  | _ => cases hi

/-- What no accept step touches. -/
theorem AcceptStep.keeps {s : State} {i : Instr} {b : Block} (h : AcceptStep s i b) :
    b.rw = s.block.rw ∧ b.buf = s.block.buf ∧ b.hi = s.block.hi := by
  cases h <;> simp

/-- R22: `V` changes for `DEC` alone. -/
theorem AcceptStep.v_eq {s : State} {i : Instr} {b : Block} (h : AcceptStep s i b) (hi : ∀ ra d, i ≠ .dec ra d) :
    b.v = s.block.v := by
  cases h with
  | decoded => exact absurd rfl (hi _ _)
  | _ => simp

/-- R22: `DEC` leaves `V[n..7]`. -/
theorem AcceptStep.v_above {s : State} {ra d : Byte} {b : Block} {fs : List Field} (h : AcceptStep s (.dec ra d) b)
    (hf : fieldsOf s.cfg ra = some fs) {k : Nat} (hk : fs.length ≤ k) : b.v[k]? = s.block.v[k]? := by
  cases h with
  | refused => simp
  | decoded hf' =>
    cases hf.symm.trans hf'
    by_cases h8 : k < 8
    · have hstore := storeFrom_getElem? (decodeFields fs d) s.block.v 0 k h8
      simpa [decodeFields, hk.not_gt] using hstore
    · simp [h8]
  | started hbus => cases hbus

/-- R23: `RD` changes for `ENC` alone. -/
theorem AcceptStep.rd_eq {s : State} {i : Instr} {b : Block} (h : AcceptStep s i b) (hi : ∀ ra, i ≠ .enc ra) :
    b.rd = s.block.rd := by
  cases h with
  | encoded => exact absurd rfl (hi _)
  | _ => simp

/-- R207, R153, R154: a command that starts no transaction leaves the sequencer's registers. -/
theorem AcceptStep.sequencer_eq {s : State} {i : Instr} {b : Block} (h : AcceptStep s i b)
    (hi : carriedOutAtOnce i = true ∨ refusalOf s.cfg i ≠ none) :
    b.busy = s.block.busy ∧ b.ec = s.block.ec ∧ b.ph = s.block.ph ∧ b.tk = s.block.tk ∧ b.tsa = s.block.tsa ∧
      b.tra = s.block.tra ∧ b.twd = s.block.twd := by
  cases h with
  | started hbus hok => simp [hbus, hok] at hi
  | _ => simp

/-- R131: only a send loads `TWD`. -/
theorem AcceptStep.twd_eq {s : State} {i : Instr} {b : Block} (h : AcceptStep s i b) (hk : b.tk ≠ .send) :
    b.twd = s.block.twd := by
  cases h with
  | @started _ tr =>
    cases tr with
    | receive sa ra => simp
    | send sa ra d => exact absurd rfl hk
  | _ => simp

/-- Settles O26: a command changes the block alone, in one of the ways of `AcceptStep`. -/
theorem commandFrame : Obligations.CommandFrame := by
  intro i s t hi h
  obtain ⟨b, hacc, rfl⟩ := exec_command_acceptStep hi h
  refine ⟨⟨rfl, rfl, rfl, rfl, rfl, rfl⟩, fun _ => rfl, hacc.keeps, hacc.v_eq, ?_, hacc.rd_eq, fun hidle => ?_, ?_⟩
  · rintro ra d fs rfl hf k hk
    exact hacc.v_above hf hk
  · obtain ⟨hbusy, hec, hph, htk, htsa, htra, -⟩ := hacc.sequencer_eq hidle
    exact ⟨hbusy, hec, hph, htk, htsa, htra⟩
  · rintro (hk | hidle)
    · exact hacc.twd_eq hk
    · obtain ⟨-, -, -, -, -, -, htwd⟩ := hacc.sequencer_eq hidle
      exact htwd

/-! ### What a host write and a step can do -/

/-- Everything a transferred host write can be: the accept step of the command written to `CMD`, the refusal of a word
that is no command, or a write to another number. -/
theorem hostWrite_cases {n : Nat} {w : Word} {s t : State} (h : hostWrite n w s = .next t) :
    ∃ b, t = s.withBlock b ∧
      ((∃ i, i.isCommand = true ∧ AcceptStep s i b) ∨ b = s.block.refuseIllegal w ∨
        (n ≠ 0 ∧ b = s.block.writePort n w)) := by
  by_cases hn : n = 0
  · rw [hostWrite, if_pos hn] at h
    split at h
    · next i hd =>
      have hi := decodeCommand_isCommand hd
      obtain ⟨b, hacc, ht⟩ := exec_command_acceptStep hi h
      exact ⟨b, ht, .inl ⟨i, hi, hacc⟩⟩
    · cases h
      exact ⟨_, rfl, .inr (.inl rfl)⟩
  · rw [hostWrite_register s w hn] at h
    cases h
    exact ⟨_, rfl, .inr (.inr ⟨hn, rfl⟩)⟩

/-- Everything a step can be, in terms of the agents: a host write transfers, the sequencer emits a micro-operation, the
block stands, or the reset input acts. The first two happen with whatever turns and held write are then left. -/
theorem step_agent_cases {s t : State} (h : step s = .next t) :
    (s.block.busy = false ∧ ∃ turns held n w,
      hostWrite n w { s with turns := turns, held := held } = .next t) ∨
    (s.block.busy = true ∧ ∃ turns i, currentOp s.cfg s.block = some i ∧
      exec i { s with turns := turns } = .next t) ∨
    (t.block = s.block ∧ t.cfg = s.cfg ∧ t.env = s.env) ∨
    ∃ rest, s.turns = .host .reset :: rest ∧ t = { s with turns := rest }.resetInput := by
  obtain ⟨x, -, hb, h⟩ | ⟨rest, i, hb, hop, h⟩ | ⟨rest, -, rfl⟩ | ⟨m, rest, hm, -, h⟩ := step_cases h
  · exact .inl ⟨hb, s.turns, none, x.num, x.word, h⟩
  · exact .inr (.inl ⟨hb, rest, i, hop, h⟩)
  · exact .inr (.inr (.inl ⟨rfl, rfl, rfl⟩))
  · cases m with
    | write n w =>
      simp only [hostMove] at h
      split at h
      · cases h
        exact .inr (.inr (.inl ⟨rfl, rfl, rfl⟩))
      · next hb => exact .inl ⟨by simpa using hb, rest, s.held, n, w, h⟩
    | read n => cases h; exact .inr (.inr (.inl ⟨rfl, rfl, rfl⟩))
    | wait => cases h; exact .inr (.inr (.inl ⟨rfl, rfl, rfl⟩))
    | reset => cases h; exact .inr (.inr (.inr ⟨rest, hm, rfl⟩))

/-- Settles O31: while `BUSY` is 1 the host has no move but the reset, and a micro-operation leaves the held write. -/
theorem heldWrite : Obligations.HeldWrite := by
  refine ⟨fun s n w rest hb hh ht => ?_, fun s t x hb hh h => ?_, fun s x hb hh => step_of_held hb hh⟩
  · simp [step_of_host hh ht, hostMove, hb]
  · obtain ⟨x', -, hb', -⟩ | ⟨rest, i, -, hop, h⟩ | ⟨rest, hb', -⟩ | ⟨m, rest, ht, hm, h⟩ := step_cases h
    · simp [hb] at hb'
    · obtain ⟨-, -, hheld, -⟩ := exec_microOp_frame (currentOp_microOp hop) h
      exact .inl (hheld.trans hh)
    · simp [hb] at hb'
    · obtain hm | ⟨rfl, -⟩ := hm
      · simp [hh] at hm
      · cases h
        exact .inr ⟨rest, ht, rfl⟩

/-! ### The invariant -/

/-- Settles O39: the block is idle and the device memory empty. -/
theorem invAtReset : Obligations.InvAtReset :=
  stateInv_iff.2 ⟨by decide, rfl, nofun, nofun, rfl⟩

/-- While `BUSY` is 0 the invariant asks nothing of the block but its flags. -/
theorem stateInv_of_idle {s t : State} (hs : stateInv s = true) (hcfg : t.cfg = s.cfg) (henv : t.env = s.env)
    (hb : t.block.busy = false) (hflags : t.block.flagsOk = true) : stateInv t = true := by
  obtain ⟨hw, -, -, -, hslv⟩ := stateInv_iff.1 hs
  exact stateInv_iff.2 ⟨hcfg ▸ hw, hflags, by simp [hb], by simp [hb], henv ▸ hslv⟩

/-- A command whose first transaction has started meets the invariant. -/
theorem stateInv_accept {s : State} {i : Instr} {tr : Transaction} (hs : stateInv s = true) (hi : i.isCommand = true)
    (first : (transactionsOf s.cfg s.block i)[0]? = some tr) :
    stateInv (s.withBlock ((s.block.latch (encode i)).accept tr)) = true := by
  obtain ⟨hw, -, -, -, hslv⟩ := stateInv_iff.1 hs
  obtain ⟨w, henc, hdec⟩ := decodeCommand_encode hi
  generalize hb : (s.block.latch (encode i)).accept tr = b
  have hcw : decodeCommand b.cw = .ok i := by simpa [← hb, henc] using hdec
  have htrans : transactionsOf s.cfg b i = transactionsOf s.cfg s.block i :=
    transactionsOf_congr s.cfg i (by simp [← hb]) (by simp [← hb])
  have hholds : b.holds tr = true := hb ▸ Block.start_holds _ tr
  have hrun : b.runningOk s.cfg = true :=
    runningOk_iff.2 ⟨i, tr, hcw, by rw [htrans, ← hb, Block.accept_ec]; exact first, hholds, by simp [← hb]⟩
  have hflags : b.flagsOk = true := flagsOk_iff.2 (by simp [← hb])
  exact stateInv_iff.2 ⟨hw, hflags, fun _ => hrun, fun _ _ => inStep_of_phase_zero (by simp [← hb]), hslv⟩

/-- An accept step that starts no transaction ends the command at once: `DONE` is 1 and the sequencer stays idle. -/
theorem AcceptStep.cases_of_idle {s : State} {i : Instr} {b : Block} (h : AcceptStep s i b)
    (hb : s.block.busy = false) :
    (b.busy = false ∧ b.done = true ∧ b.ec = s.block.ec ∧ b.ph = s.block.ph) ∨
    ∃ tr, b = (s.block.latch (encode i)).accept tr ∧
      (s.cfg.wf = true → (transactionsOf s.cfg s.block i)[0]? = some tr) := by
  cases h with
  | @started _ tr _ _ first => exact .inr ⟨tr, rfl, first⟩
  | _ => exact .inl (by simp [hb])

theorem stateInv_hostWrite {s t : State} {n : Nat} {w : Word} (hs : stateInv s = true) (hb : s.block.busy = false)
    (h : hostWrite n w s = .next t) : stateInv t = true := by
  obtain ⟨hw, hflags, -, -, -⟩ := stateInv_iff.1 hs
  have hpc : s.block.ec = 0#5 ∧ s.block.ph = 0#3 := by simpa [hb] using (flagsOk_iff.1 hflags).2.2
  obtain ⟨b, rfl, ⟨i, hi, hacc⟩ | rfl | ⟨-, rfl⟩⟩ := hostWrite_cases h
  · obtain ⟨hb', hd, hec, hph⟩ | ⟨tr, rfl, first⟩ := hacc.cases_of_idle hb
    · exact stateInv_of_idle hs rfl rfl hb' (flagsOk_iff.2 (by simp [hb', hd, hec, hph, hpc]))
    · exact stateInv_accept hs hi (first hw)
  · exact stateInv_of_idle hs rfl rfl hb (flagsOk_iff.2 (by simp [Block.refuseIllegal, hb, hpc]))
  · obtain ⟨hbusy, hdone, herr, hec, hph⟩ := writePort_control s.block n w
    refine stateInv_of_idle hs rfl rfl (hbusy.trans hb) ?_
    simpa [Block.flagsOk, hbusy, hdone, herr, hec, hph] using hflags

theorem stateInv_resetInput {s : State} (hs : stateInv s = true) : stateInv s.resetInput = true :=
  stateInv_of_idle hs rfl rfl rfl rfl

/-- Settles O40: a transferred write, a micro-operation of the sequencer and the reset input each keep the invariant, and
it speaks of the block, the parameters and the environment alone. -/
theorem invKept : Obligations.InvKept := by
  intro s t hs h
  obtain ⟨hb, turns, held, n, w, h⟩ | ⟨hb, turns, i, hop, h⟩ | ⟨hblock, hcfg, henv⟩ | ⟨rest, -, rfl⟩ :=
    step_agent_cases h
  · exact stateInv_hostWrite (s := { s with turns := turns, held := held }) hs hb h
  · exact stateInv_exec_currentOp (s := { s with turns := turns }) hs hb hop h
  · rw [stateInv, hblock, hcfg, henv]
    exact hs
  · exact stateInv_resetInput (s := { s with turns := rest }) hs

/-! ### `BUSY`, `DONE` and `ERR` (R30) -/

/-- A transferred write to `CMD` makes exactly one of `BUSY` and `DONE` 1, and no other write changes them. -/
theorem hostWrite_busy_ne_done {s t : State} {n : Nat} {w : Word} (hb : s.block.busy = false)
    (hn : n = 0 ∨ s.block.busy ≠ s.block.done) (h : hostWrite n w s = .next t) : t.block.busy ≠ t.block.done := by
  obtain ⟨b, rfl, ⟨i, -, hacc⟩ | rfl | ⟨hn', rfl⟩⟩ := hostWrite_cases h
  · obtain ⟨hb', hd, -, -⟩ | ⟨tr, rfl, -⟩ := hacc.cases_of_idle hb
    · simp [hb', hd]
    · simp
  · simp [Block.refuseIllegal, hb]
  · obtain ⟨hbusy, hdone, -, -, -⟩ := writePort_control s.block n w
    simpa [hbusy, hdone] using hn.resolve_left hn'

/-- Settles O42: the invariant has what R30 says of the three flags, and only a write to `CMD`, the end of a command and
the reset input change `BUSY` or `DONE`. -/
theorem busyDoneErr : Obligations.BusyDoneErr := by
  refine ⟨⟨rfl, rfl⟩, fun s t hs h => ?_, fun s t w _ hb h => hostWrite_busy_ne_done hb (.inl rfl) h,
    fun s t hs hne h => ?_⟩
  · obtain ⟨-, hflags, -⟩ := stateInv_iff.1 (invKept s t hs h)
    obtain ⟨hdone, herr, -⟩ := flagsOk_iff.1 hflags
    exact ⟨fun hboth => by simp [hdone hboth.1] at hboth, herr.resolve_left⟩
  · obtain ⟨hb, turns, held, n, w, h⟩ | ⟨hb, turns, i, hop, h⟩ | ⟨hblock, -, -⟩ | hreset := step_agent_cases h
    · exact .inl (hostWrite_busy_ne_done (s := { s with turns := turns, held := held }) hb (.inr hne) h)
    · obtain ⟨hw, -, hrun, -, -⟩ := stateInv_iff.1 hs
      obtain ⟨-, hbusy, hdone, -⟩ | ⟨hbusy, hdone, -⟩ :=
        exec_currentOp_runs_or_ends (s := { s with turns := turns }) hw (hrun hb) hop h
      · exact .inl (by rwa [hbusy, hdone])
      · exact .inl (by simp [hbusy, hdone])
    · exact .inl (hblock ▸ hne)
    · exact .inr hreset

/-! ### What the sequencer does while a command runs -/

/-- R172, R175: a transaction with another one after it collects into neither `V` nor `RW`. -/
theorem collect_results_of_next {c : Config} {i : Instr} {b : Block} {tr : Transaction}
    (h : (transactionsOf c b i)[b.ec.toNat + 1]? = some tr) : (collect c i b).v = b.v ∧ (collect c i b).rw = b.rw := by
  have hlt := (List.getElem?_eq_some_iff.1 h).1
  cases i with
  | rdreg ra =>
    simp [transactionsOf, rdregTransactions] at hlt
  | rdpair ra =>
    have hec : b.ec = 0#5 := by
      simp only [transactionsOf, rdpairTransactions] at hlt
      split at hlt <;> simp only [List.length_nil, List.length_cons] at hlt
      · omega
      · exact BitVec.eq_of_toNat_eq (by simp only [BitVec.toNat_ofNat]; omega)
    simp [collect, rdpairCollect, hec]
  | _ => exact ⟨rfl, rfl⟩

/-- The end of a transaction ends the command or leaves `V` and `RW`. -/
theorem endTransaction_results (c : Config) (b : Block) :
    ((endTransaction c b).busy = false ∧ (endTransaction c b).done = true) ∨
    ((endTransaction c b).v = b.v ∧ (endTransaction c b).rw = b.rw) := by
  cases hd : decodeCommand b.cw with
  | error r => simp [endTransaction, hd]
  | ok i =>
    rw [endTransaction_command hd]
    cases hn : (transactionsOf c b i)[b.ec.toNat + 1]? with
    | none => exact .inl ⟨rfl, rfl⟩
    | some tr => exact .inr (by simpa [Block.advance] using collect_results_of_next hn)

/-- Settles O46: of all steps while `BUSY` is 1, only the end of a transaction reaches `V` or `RW`, and only that of the
last one. -/
theorem resultsAppearInLastStep : Obligations.ResultsAppearInLastStep := by
  intro s t _ hb h hne
  have same (hv : t.block.v = s.block.v) (hrw : t.block.rw = s.block.rw) :
      t.block.busy = false ∧ t.block.done = true := by simp [hv, hrw] at hne
  obtain ⟨hb', -⟩ | ⟨-, turns, i, hop, h⟩ | ⟨hblock, -, -⟩ | ⟨rest, -, rfl⟩ := step_agent_cases h
  · simp [hb] at hb'
  · obtain ⟨-, ht⟩ | ⟨-, -, ht⟩ | ⟨-, -, x, ht⟩ := exec_currentOp_block (s := { s with turns := turns }) hop h
    · exact same (by rw [ht]) (by rw [ht])
    · exact same (by rw [ht]; rfl) (by rw [ht]; rfl)
    · obtain hend | ⟨hv, hrw⟩ := endTransaction_results s.cfg { s.block with rd := x }
      · rwa [ht]
      · exact same (by rw [ht, hv]) (by rw [ht, hrw])
  · exact same (by rw [hblock]) (by rw [hblock])
  · exact same rfl rfl

/-- Settles O48: with the host quiet, the step is the sequencer's. -/
theorem workDecreases : Obligations.WorkDecreases := by
  intro s t hinv hb hq h
  have hs : s.RunsQuietly := ⟨hinv, hb, hq⟩
  refine ⟨fun hp => (hs.next_of_pollsBusy h hp).2.1, fun hp => ?_⟩
  have hwork := hs.work_next h hp
  rwa [(parametersNeverChange s t h).1] at hwork

end Sys2Proof.Machine

/-! Proofs of the encoding family: the decoder and the encoder as inverses (O1, O2), the patterns of the two instruction
sets (O3, O4), the sample words (O5), and the step that runs a command (O29). On the way: two words are equal when their
fields are (`word_eq_iff_formatR`, `word_eq_iff_formatT`, `microWord_eq_iff`), so that a pattern and an encoding are both
read field by field; and decoding is the inverse relation of encoding (`decode_eq_ok_iff`). -/

namespace Sys2Proof

/-! ### Words, field by field -/

theorem word_eq_iff_formatR {w w' : Word} : w = w' ↔ opField w = opField w' ∧ z1Field w = z1Field w' ∧
    idxField w = idxField w' ∧ raField w = raField w' ∧ dField w = dField w' := by
  refine ⟨by rintro rfl; and_intros <;> rfl, fun ⟨hop, hz1, hidx, hra, hd⟩ => ?_⟩
  rw [← word_eq_append w, hop, hz1, hidx, hra, hd, word_eq_append]

theorem word_eq_iff_formatT {w w' : Word} : w = w' ↔ opField w = opField w' ∧ z1Field w = z1Field w' ∧
    z2Field w = z2Field w' ∧ saField w = saField w' ∧ raField w = raField w' ∧ dField w = dField w' := by
  refine ⟨by rintro rfl; and_intros <;> rfl, fun ⟨hop, hz1, hz2, hsa, hra, hd⟩ => ?_⟩
  exact word_eq_iff_formatR.mpr ⟨hop, hz1, by rw [idxField_eq_append, hz2, hsa, ← idxField_eq_append], hra, hd⟩

theorem microWord_eq_iff {u u' : MicroWord} : u = u' ↔ kindField u = kindField u' ∧ payloadField u = payloadField u' := by
  refine ⟨by rintro rfl; exact ⟨rfl, rfl⟩, fun ⟨hk, hp⟩ => ?_⟩
  rw [← microWord_eq_append u, hk, hp, microWord_eq_append]

/-- R82: the words of format T. -/
theorem formatT_eq_iff {op : BitVec 4} {sa : SlaveAddr} {ra d : Byte} {w : Word} : formatT op sa ra d = w ↔
    opField w = op ∧ z1Field w = 0#4 ∧ z2Field w = 0#1 ∧ saField w = sa ∧ raField w = ra ∧ dField w = d := by
  rw [eq_comm, word_eq_iff_formatT, opField_formatT, z1Field_formatT, z2Field_formatT, saField_formatT, raField_formatT,
    dField_formatT]

/-- R83: the words of format R. -/
theorem formatR_eq_iff {op : BitVec 4} {idx ra d : Byte} {w : Word} : formatR op idx ra d = w ↔
    opField w = op ∧ z1Field w = 0#4 ∧ idxField w = idx ∧ raField w = ra ∧ dField w = d := by
  rw [eq_comm, word_eq_iff_formatR, opField_formatR, z1Field_formatR, idxField_formatR, raField_formatR, dField_formatR]

/-- R92: the micro-operation words. -/
theorem formatU_eq_iff {k : BitVec 3} {p : Byte} {u : MicroWord} : formatU k p = u ↔
    kindField u = k ∧ payloadField u = p := by
  rw [eq_comm, microWord_eq_iff, kindField_formatU, payloadField_formatU]

/-! ### The payload of `SETADDR` (R93) -/

@[simp] theorem Dir.ofBit_bit (dir : Dir) : Dir.ofBit dir.bit = dir := by
  cases dir <;> rfl

@[simp] theorem Dir.bit_ofBit (b : BitVec 1) : (Dir.ofBit b).bit = b := by
  revert b
  decide

/-- The address of a `SETADDR` word. -/
theorem extractAddr_formatU (k : BitVec 3) (sa : SlaveAddr) (b : BitVec 1) :
    (formatU k (sa ++ b)).extractLsb' 1 7 = sa := by
  rw [formatU, BitVec.extractLsb'_append_eq_of_add_le (by decide), BitVec.extractLsb'_append_eq_left]

/-- The direction bit of a `SETADDR` word. -/
theorem extractDir_formatU (k : BitVec 3) (sa : SlaveAddr) (b : BitVec 1) :
    (formatU k (sa ++ b)).extractLsb' 0 1 = b := by
  rw [formatU, BitVec.extractLsb'_append_eq_of_add_le (by decide), BitVec.extractLsb'_append_eq_right]

/-- A payload is put together again from the address and the direction bit. -/
theorem payloadField_eq_append (u : MicroWord) : payloadField u = u.extractLsb' 1 7 ++ u.extractLsb' 0 1 :=
  (BitVec.extractLsb'_append_extractLsb'_eq_extractLsb' (len₁ := 1) (len₂ := 7) rfl).symm

/-! ### Decoding and encoding are inverse (R90) -/

/-- R93 to R95: the word of a micro-operation decodes to the micro-operation. -/
theorem decodeMicroOp_encode {i : Instr} (hi : i.isCommand = false) :
    ∃ u, encode i = .microOp u ∧ decodeMicroOp u = .ok i := by
  cases i with
  | setaddr sa dir =>
    exact ⟨_, rfl, by simp [decodeMicroOp, kindField_formatU, extractAddr_formatU, extractDir_formatU]⟩
  | put b => exact ⟨_, rfl, by simp [decodeMicroOp, kindField_formatU, payloadField_formatU]⟩
  | ctrlBurstStart | ctrlBurstFinish | ctrlSingle | poll | get => exact ⟨_, rfl, by decide⟩
  | _ => cases hi

/-- Settles O1: each instruction set by its own decoder, from the fields of an encoded word. -/
theorem decodeOfEncode : Obligations.DecodeOfEncode := by
  intro i
  cases hi : i.isCommand with
  | true =>
    obtain ⟨w, hw, hd⟩ := Machine.decodeCommand_encode hi
    rw [hw]
    exact hd
  | false =>
    obtain ⟨u, hu, hd⟩ := decodeMicroOp_encode hi
    rw [hu]
    exact hd

/-- R85, R89: an accepted command word has its opcode, zeros in its must-be-zero bits, and nothing else but operands. -/
theorem encode_of_decodeCommand {w : Word} {i : Instr} (h : decodeCommand w = .ok i) : encode i = .command w := by
  unfold decodeCommand at h
  split at h
  iterate 2
    · next hop =>
      obtain ⟨hz, rfl⟩ := Machine.requireZero_ok h
      simp only [encode, Encoded.command.injEq, formatT_eq_iff, hop]
      simpa [and_assoc] using hz
  iterate 9
    · next hop =>
      obtain ⟨hz, rfl⟩ := Machine.requireZero_ok h
      simp only [encode, Encoded.command.injEq, formatR_eq_iff, hop]
      simpa [and_assoc] using hz
  · cases h

/-- R94: an accepted control payload is the code of the instruction. -/
theorem encode_of_decodeCtrl {p : Byte} {i : Instr} (h : decodeCtrl p = .ok i) : encode i = .microOp (formatU 2 p) := by
  unfold decodeCtrl at h
  split at h
  · next hp => cases h; rw [hp]; rfl
  · split at h
    · next hp => cases h; rw [hp]; rfl
    · split at h
      · next hp => cases h; rw [hp]; rfl
      · cases h

/-- R92 to R95: an accepted micro-operation word has the kind of the instruction, and the payload. -/
theorem encode_of_decodeMicroOp {u : MicroWord} {i : Instr} (h : decodeMicroOp u = .ok i) : encode i = .microOp u := by
  unfold decodeMicroOp at h
  split at h
  · next hk =>
    cases h
    simp [encode, formatU_eq_iff, hk, payloadField_eq_append]
  · next hk =>
    cases h
    simp [encode, formatU_eq_iff, hk]
  · next hk =>
    rw [encode_of_decodeCtrl h, Encoded.microOp.injEq, formatU_eq_iff]
    exact ⟨hk, rfl⟩
  iterate 2
    · next hk =>
      split at h
      · next hp => cases h; exact congrArg _ (formatU_eq_iff.mpr ⟨hk, hp⟩)
      · cases h
  · cases h

/-- Settles O2: no bit of an accepted word is free, in either instruction set. -/
theorem encodeOfDecode : Obligations.EncodeOfDecode := by
  intro x i h
  cases x with
  | command w => exact encode_of_decodeCommand h
  | microOp u => exact encode_of_decodeMicroOp h

theorem decode_eq_ok_iff {x : Encoded} {i : Instr} : decode x = .ok i ↔ encode i = x :=
  ⟨encodeOfDecode x i, fun h => h ▸ decodeOfEncode i⟩

theorem decodeCommand_eq_ok_iff {w : Word} {i : Instr} : decodeCommand w = .ok i ↔ encode i = .command w :=
  decode_eq_ok_iff (x := .command w)

theorem decodeMicroOp_eq_ok_iff {u : MicroWord} {i : Instr} : decodeMicroOp u = .ok i ↔ encode i = .microOp u :=
  decode_eq_ok_iff (x := .microOp u)

/-! ### The patterns of the commands (R85) -/

/-- R85: the rows of the pattern table, each with its mask, its match and the command it makes of the word. -/
def commandRows (w : Word) : List (Word × Word × Instr) := [
  (0xFF8000FF#32, 0x10000000#32, .recvb (saField w) (raField w)),
  (0xFF800000#32, 0x20000000#32, .sendb (saField w) (raField w) (dField w)),
  (0xFFFF0000#32, 0x30000000#32, .dec (raField w) (dField w)),
  (0xFFFF00FF#32, 0x40000000#32, .enc (raField w)),
  (0xFFFF00FF#32, 0x50000000#32, .rdreg (raField w)),
  (0xFFFF00FF#32, 0x60000000#32, .wrreg (raField w)),
  (0xFFFF00FF#32, 0x70000000#32, .rdpair (raField w)),
  (0xFF0000FF#32, 0x80000000#32, .rdarr (raField w) (idxField w)),
  (0xFF000000#32, 0x90000000#32, .wrarr (raField w) (idxField w) (dField w)),
  (0xFFFF00FF#32, 0xA0000000#32, .rdbank (raField w)),
  (0xFFFF00FF#32, 0xB0000000#32, .wrbank (raField w))]

/-- A pattern of format R, field by field. -/
theorem and_eq_iff_formatR {w m p : Word} : w &&& m = p ↔ opField w &&& opField m = opField p ∧
    z1Field w &&& z1Field m = z1Field p ∧ idxField w &&& idxField m = idxField p ∧
    raField w &&& raField m = raField p ∧ dField w &&& dField m = dField p := by
  rw [word_eq_iff_formatR]
  simp only [opField, z1Field, idxField, raField, dField, BitVec.extractLsb'_and]

/-- A pattern of format T, field by field. -/
theorem and_eq_iff_formatT {w m p : Word} : w &&& m = p ↔ opField w &&& opField m = opField p ∧
    z1Field w &&& z1Field m = z1Field p ∧ z2Field w &&& z2Field m = z2Field p ∧
    saField w &&& saField m = saField p ∧ raField w &&& raField m = raField p ∧ dField w &&& dField m = dField p := by
  rw [word_eq_iff_formatT]
  simp only [opField, z1Field, z2Field, saField, raField, dField, BitVec.extractLsb'_and]

/-! A mask with all ones in a field keeps the field: the widths of the fields that the patterns fix. -/

theorem and_ones_mbz (x : BitVec 1) : x &&& 1#1 = x := BitVec.and_allOnes

theorem and_ones_nibble (x : BitVec 4) : x &&& 15#4 = x := BitVec.and_allOnes

theorem and_ones_kind (x : BitVec 3) : x &&& 7#3 = x := BitVec.and_allOnes

theorem and_ones_byte (x : Byte) : x &&& 255#8 = x := BitVec.and_allOnes

/-- The pattern of a row fixes the opcode and the must-be-zero bits, as the encoding of the row's command does. -/
theorem decodeCommand_row_iff {w : Word} {r : Word × Word × Instr} (hr : r ∈ commandRows w) :
    decodeCommand w = .ok r.2.2 ↔ w &&& r.1 = r.2.1 := by
  rw [decodeCommand_eq_ok_iff]
  simp only [commandRows, List.mem_cons, List.not_mem_nil, or_false] at hr
  rcases hr with rfl | rfl | rfl | rfl | rfl | rfl | rfl | rfl | rfl | rfl | rfl
  iterate 2
    · simp only [encode, Encoded.command.injEq, formatT_eq_iff, and_eq_iff_formatT]
      simp [opField, z1Field, z2Field, saField, raField, dField, and_ones_mbz, and_ones_nibble, and_ones_byte]
  iterate 9
    · simp only [encode, Encoded.command.injEq, formatR_eq_iff, and_eq_iff_formatR]
      simp [opField, z1Field, idxField, raField, dField, and_ones_nibble, and_ones_byte]

/-- Every mask covers the opcode, and every match is zero outside the opcode. -/
theorem row_opcode {w : Word} {r : Word × Word × Instr} (hr : r ∈ commandRows w) :
    opField r.1 = 15#4 ∧ formatR (opField r.2.1) 0 0 0 = r.2.1 := by
  simp only [commandRows, List.mem_cons, List.not_mem_nil, or_false] at hr
  rcases hr with rfl | rfl | rfl | rfl | rfl | rfl | rfl | rfl | rfl | rfl | rfl <;>
    simp [formatR_eq_iff, opField, z1Field, idxField, raField, dField]

/-- So the opcode of a word decides which row it can match. -/
theorem match_eq_of_row {w : Word} {r : Word × Word × Instr} (hr : r ∈ commandRows w) (h : w &&& r.1 = r.2.1) :
    formatR (opField w) 0 0 0 = r.2.1 := by
  obtain ⟨hmask, hmatch⟩ := row_opcode hr
  obtain ⟨hop, -⟩ := and_eq_iff_formatR.mp h
  rwa [← hop, hmask, and_ones_nibble] at hmatch

/-- The decoder answers nothing but the commands of the rows. -/
theorem exists_row_of_decodeCommand {w : Word} {i : Instr} (h : decodeCommand w = .ok i) :
    ∃ r ∈ commandRows w, r.2.2 = i := by
  unfold decodeCommand at h
  split at h
  iterate 11
    · obtain ⟨-, rfl⟩ := Machine.requireZero_ok h
      simp [commandRows]
  · cases h

/-- Settles O3: each row by its fields, two rows by the opcode, and a rejection because only rows are accepted. -/
theorem commandPatterns : Obligations.CommandPatterns := by
  intro w
  show (∀ r ∈ commandRows w, _) ∧ (∀ r ∈ commandRows w, ∀ q ∈ commandRows w, _) ∧ (_ ↔ ∀ r ∈ commandRows w, _)
  refine ⟨fun r hr => decodeCommand_row_iff hr,
    fun r hr q hq hwr hwq => (match_eq_of_row hr hwr).symm.trans (match_eq_of_row hq hwq), ?_⟩
  constructor
  · rintro ⟨e, he⟩ r hr hwr
    rw [(decodeCommand_row_iff hr).mpr hwr] at he
    cases he
  · intro hnone
    cases hd : decodeCommand w with
    | error e => exact ⟨e, rfl⟩
    | ok i =>
      obtain ⟨r, hr, rfl⟩ := exists_row_of_decodeCommand hd
      exact absurd ((decodeCommand_row_iff hr).mp hd) (hnone r hr)

/-! ### The words and patterns of the micro-operations (R95) -/

/-- The pattern of a kind whose payload is an operand. -/
theorem kind_pattern_iff {k : BitVec 3} {u : MicroWord} : u &&& 0x700#11 = formatU k 0 ↔ kindField u = k := by
  rw [eq_comm, formatU_eq_iff]
  simp [kindField, payloadField, BitVec.extractLsb'_and, and_ones_kind]

/-- The pattern of a micro-operation without operands is its word. -/
theorem word_pattern_iff {i : Instr} {v : MicroWord} (hi : encode i = .microOp v) (u : MicroWord) :
    u &&& 0x7FF#11 = v ↔ decodeMicroOp u = .ok i := by
  have hones : u &&& 0x7FF#11 = u := BitVec.and_allOnes
  rw [hones, decodeMicroOp_eq_ok_iff, hi, Encoded.microOp.injEq, eq_comm]

theorem exists_setaddr_iff {u : MicroWord} :
    (∃ sa dir, decodeMicroOp u = .ok (.setaddr sa dir)) ↔ kindField u = 0#3 := by
  simp only [decodeMicroOp_eq_ok_iff, encode, Encoded.microOp.injEq, formatU_eq_iff]
  refine ⟨fun ⟨_, _, hk, _⟩ => hk, fun hk => ⟨u.extractLsb' 1 7, Dir.ofBit (u.extractLsb' 0 1), hk, ?_⟩⟩
  rw [Dir.bit_ofBit, payloadField_eq_append]

theorem exists_put_iff {u : MicroWord} : (∃ b, decodeMicroOp u = .ok (.put b)) ↔ kindField u = 1#3 := by
  simp [decodeMicroOp_eq_ok_iff, encode, formatU_eq_iff]

theorem encode_put (b : Byte) : encode (.put b) = .microOp (0x100#11 ||| b.zeroExtend 11) :=
  congrArg Encoded.microOp (BitVec.append_def 1#3 b)

/-- R93: bit 0 of a `SETADDR` word is the direction. -/
theorem direction_formatU {k : BitVec 3} {sa : SlaveAddr} {dir : Dir} :
    (formatU k (sa ++ dir.bit)).getLsbD 0 = true ↔ dir = .read := by
  simp only [formatU, BitVec.getLsbD_append]
  cases dir <;> simp [Dir.bit]

/-- Settles O4: the patterns of `SETADDR` and `PUT` fix the kind, each other pattern the word. -/
theorem microOpPatterns : Obligations.MicroOpPatterns := by
  refine ⟨encode_put, rfl, rfl, fun sa dir => ?_, fun c => by cases c <;> decide, fun u => ?_⟩
  · exact ⟨_, rfl, kindField_formatU _ _, extractAddr_formatU _ sa dir.bit, direction_formatU⟩
  · exact ⟨kind_pattern_iff.trans exists_setaddr_iff.symm, kind_pattern_iff.trans exists_put_iff.symm,
      word_pattern_iff rfl u, word_pattern_iff rfl u, word_pattern_iff rfl u, word_pattern_iff rfl u,
      word_pattern_iff rfl u⟩

/-- Settles O5: each word is decoded. -/
theorem sampleWordsDecode : Obligations.SampleWordsDecode := by
  unfold Obligations.SampleWordsDecode
  decide

end Sys2Proof

namespace Sys2Proof.Machine

/-- R81: a write to `CMD` of a word that decodes to a command is the command's accept step. -/
theorem hostWrite_command {w : Word} {i : Instr} (hd : decodeCommand w = .ok i) (s : State) :
    hostWrite 0 w s = exec i s := by
  rw [hostWrite, if_pos rfl, hd]

/-- R39: with `BUSY` 0 and no write held, the host's write transfers in the step that makes it. -/
theorem step_of_hostWrite {s : State} {n : Nat} {w : Word} {rest : List Turn} (hb : s.block.busy = false)
    (hh : s.held = none) (ht : s.turns = .host (.write n w) :: rest) :
    step s = hostWrite n w { s with turns := rest } := by
  rw [step_of_host hh ht, hostMove, if_neg (by simp [hb])]

/-- Settles O29: both a direct and a held write transfer through `hostWrite`. -/
theorem stepRunsCommand : Obligations.StepRunsCommand := by
  refine ⟨fun s n w rest => step_of_hostWrite, fun s w i hb hd => ⟨fun rest hh ht => ?_, fun hh => ?_⟩⟩
  · rw [step_of_hostWrite hb hh ht, hostWrite_command hd]
  · rw [step_of_held hb hh, hostWrite_command hd]

end Sys2Proof.Machine

/-! Proofs of the bus-port family: the meaning of each micro-operation (O21, O22, O23, O24), its frame (O27, O28), the trace
(O43, O44), what the block sees of the environment (O45), and `SENDB` and `RECVB` in the reference environment (O59, O60).
On the way: one equation per micro-operation (`exec_setaddr` to `exec_get`); what the choice of the next step does not read
(`step_elsewhere`); a whole transaction and a whole leaf command in any environment whose answers are known (`run_send`,
`run_receive`, `run_sendb`, `run_recvb`); and what the reference controller does in a transaction (`Env.sends_reference`,
`Env.receives_reference`). -/

namespace Sys2Proof.Machine

/-! ### The words on the port (R93 to R95) -/

theorem setaddrWord_eq_append (sa : SlaveAddr) (dir : Dir) : setaddrWord sa dir = 0#3 ++ sa ++ dir.bit := by
  apply BitVec.eq_of_getLsbD_eq
  intro i hi
  interval_cases i <;>
    simp only [setaddrWord, BitVec.getLsbD_append, BitVec.getLsbD_or, BitVec.getLsbD_shiftLeft,
      BitVec.getLsbD_setWidth] <;>
    simp

theorem encode_setaddr (sa : SlaveAddr) (dir : Dir) : encode (.setaddr sa dir) = .microOp (setaddrWord sa dir) := by
  rw [setaddrWord_eq_append, BitVec.append_assoc]
  rfl

theorem encode_ctrlInstr (c : Ctrl) : encode (ctrlInstr c) = .microOp (ctrlWord c) := by
  cases c <;> rfl

/-! ### What each micro-operation answers (R112 to R118) -/

/-- R111: a micro-operation on the port, with the answer given and with the block and the environment it leads to. -/
def State.onPort (s : State) (u : MicroWord) (a : Answer) (b : Block) (e : Env) : State :=
  { s with block := b, trace := s.trace ++ [⟨u, a⟩], env := e }

theorem exec_setaddr (sa : SlaveAddr) (dir : Dir) (s : State) : exec (.setaddr sa dir) s =
    .next (s.onPort (setaddrWord sa dir) .nothing s.block.nextPhase (s.env.setAddr (sa ++ dir.bit))) := by
  rw [exec, execSetaddr, encode_setaddr]
  rfl

theorem exec_put (x : Byte) (s : State) : exec (.put x) s =
    .next (s.onPort (putWord x) .nothing s.block.nextPhase (s.env.put x)) := by
  rw [exec, execPut, encode_put]
  rfl

theorem exec_ctrl_of_some {c : Ctrl} {s : State} {e : Env} (h : s.env.ctrl c = some e) : exec (ctrlInstr c) s =
    .next (s.onPort (ctrlWord c) .nothing s.block.nextPhase e) := by
  rw [exec_ctrlInstr, emitCtrl, h, encode_ctrlInstr]
  rfl

theorem exec_ctrl_of_none {c : Ctrl} {s : State} (h : s.env.ctrl c = none) :
    exec (ctrlInstr c) s = .fault .noControllerStep := by
  rw [exec_ctrlInstr, emitCtrl, h]

theorem exec_poll (s : State) : exec .poll s =
    .next (s.onPort 0x300#11 (.busy s.env.busyAnswer) (s.block.afterPoll s.cfg s.env.busyAnswer) s.env.afterPoll) :=
  rfl

theorem exec_get (s : State) : exec .get s =
    .next (s.onPort 0x400#11 (.data s.env.byteAnswer) (endTransaction s.cfg { s.block with rd := s.env.byteAnswer })
      s.env.afterGet) :=
  rfl

/-- Settles O21: the two controller registers are what `Env.setAddr` and `Env.put` load. -/
theorem setaddrPutComplete : Obligations.SetaddrPutComplete := by
  refine ⟨fun sa dir s => ⟨s.env.setAddr (sa ++ dir.bit), ?_, fun hm => ?_, fun hm => ?_⟩,
    fun x s => ⟨s.env.put x, exec_put x s, fun hm => ?_, fun hm => ?_⟩⟩
  · rw [exec_setaddr, setaddrWord_eq_append]
    rfl
  · simp only [Env.setAddr, hm]
  · simp only [Env.setAddr, hm]
  · simp only [Env.put, hm]
  · simp only [Env.put, hm]

/-! ### Where the controller has a step for a `CTRL` (R121) -/

theorem Env.ctrl_free {e : Env} (hm : e.mode = .free) (c : Ctrl) : e.ctrl c = some e := by
  simp only [Env.ctrl, hm]

theorem Env.ctrl_reference {e : Env} (hm : e.mode = .reference) :
    e.ctrl .burstStart = e.refBurstStart ∧ e.ctrl .burstFinish = e.refBurstFinish ∧ e.ctrl .single = e.refSingle := by
  simp only [Env.ctrl, hm, and_self]

/-- R93, R121: the direction is bit 0 of `MSA`. -/
theorem Env.msaDir_eq (e : Env) : e.msaDir = if e.msa.getLsbD 0 then .read else .write := by
  have hbit : e.msa.extractLsb' 0 1 = BitVec.ofBool (e.msa.getLsbD 0) := by
    apply BitVec.eq_of_getLsbD_eq
    intro i hi
    interval_cases i
    simp
  rw [Env.msaDir, Dir.ofBit, hbit]
  cases e.msa.getLsbD 0 <;> rfl

theorem Env.isSome_refBurstStart (e : Env) : e.refBurstStart.isSome = !e.msa.getLsbD 0 := by
  rw [Env.refBurstStart, Env.msaDir_eq]
  cases e.msa.getLsbD 0 <;> rfl

theorem Env.isSome_refBurstFinish (e : Env) : e.refBurstFinish.isSome = (!e.msa.getLsbD 0 && e.opn.isSome) := by
  rw [Env.refBurstFinish, Env.msaDir_eq]
  cases e.msa.getLsbD 0 <;> cases e.opn <;> rfl

theorem Env.isSome_refSingle (e : Env) : e.refSingle.isSome = true := by
  rw [Env.refSingle]
  cases e.msaDir <;> rfl

/-- Settles O22: a `CTRL` completes exactly where the controller has a step, and faults elsewhere. -/
theorem ctrlCompletes : Obligations.CtrlCompletes := by
  intro c s hasStep
  have hstep : hasStep = (s.env.ctrl c).isSome := by
    cases hm : s.env.mode with
    | free => simp [hasStep, hm, Env.ctrl_free hm]
    | reference =>
      obtain ⟨hstart, hfinish, hsingle⟩ := Env.ctrl_reference hm
      cases c with
      | burstStart => simp [hasStep, hm, hstart, Env.isSome_refBurstStart]
      | burstFinish => simp [hasStep, hm, hfinish, Env.isSome_refBurstFinish]
      | single => simp [hasStep, hsingle, Env.isSome_refSingle]
  rw [hstep]
  refine ⟨fun hsome => ?_, fun hnone => ?_⟩
  · obtain ⟨e, he⟩ := Option.isSome_iff_exists.mp hsome
    exact ⟨e, exec_ctrl_of_some he, fun hm => Option.some.inj (he.symm.trans (Env.ctrl_free hm c))⟩
  · exact exec_ctrl_of_none (by simpa using hnone)

/-- Settles O23: the three cases are those of `Block.afterPoll`. -/
theorem pollCompletes : Obligations.PollCompletes := by
  refine fun s => ⟨_, exec_poll s, rfl, fun hbusy => ?_, fun hidle hk hp => ?_, fun hidle hlast => ?_⟩
  · simp only [State.onPort, hbusy, Block.afterPoll_true]
  · simp only [State.onPort, hidle, Block.afterPoll_false, hk, hp, and_self, if_true]
  · simp only [State.onPort, hidle, Block.afterPoll_false, hlast, if_false]
    rfl

/-! ### What the end of a transaction leaves unchanged in the block -/

/-- `b'` holds what `b` holds in `CW` and `ERR`, and in each data register that the command in `CW` of `b` does not
collect into (R139). -/
structure Block.KeepsUncollected (b b' : Block) : Prop where
  cw : b'.cw = b.cw
  err : b'.err = b.err
  v : (∀ ra, decodeCommand b.cw ≠ .ok (.rdreg ra)) → b'.v = b.v
  rw_hi : (∀ ra, decodeCommand b.cw ≠ .ok (.rdpair ra)) → b'.rw = b.rw ∧ b'.hi = b.hi
  buf : (∀ ra, decodeCommand b.cw ≠ .ok (.rdbank ra)) → b'.buf = b.buf

theorem Block.keepsUncollected_refl (b : Block) : b.KeepsUncollected b :=
  ⟨rfl, rfl, fun _ => rfl, fun _ => ⟨rfl, rfl⟩, fun _ => rfl⟩

theorem Block.keepsUncollected_nextPhase (b : Block) : b.KeepsUncollected b.nextPhase :=
  ⟨rfl, rfl, fun _ => rfl, fun _ => ⟨rfl, rfl⟩, fun _ => rfl⟩

/-- R139: collecting goes into `V` for `RDREG`, into `RW` and `HI` for `RDPAIR`, into `BUF` for `RDBANK`. -/
theorem collect_data (c : Config) (i : Instr) (b : Block) :
    ((∀ ra, i ≠ .rdreg ra) → (collect c i b).v = b.v) ∧
    ((∀ ra, i ≠ .rdpair ra) → (collect c i b).rw = b.rw ∧ (collect c i b).hi = b.hi) ∧
    ((∀ ra, i ≠ .rdbank ra) → (collect c i b).buf = b.buf) := by
  cases i with
  | rdreg ra =>
    simp only [collect, rdregCollect]
    split <;> exact ⟨fun h => absurd rfl (h ra), fun _ => ⟨rfl, rfl⟩, fun _ => rfl⟩
  | rdpair ra =>
    simp only [collect, rdpairCollect]
    split <;> exact ⟨fun _ => rfl, fun h => absurd rfl (h ra), fun _ => rfl⟩
  | rdbank ra => exact ⟨fun _ => rfl, fun _ => ⟨rfl, rfl⟩, fun h => absurd rfl (h ra)⟩
  | _ => exact ⟨fun _ => rfl, fun _ => ⟨rfl, rfl⟩, fun _ => rfl⟩

theorem endTransaction_noCommand {c : Config} {b : Block} {r : Reject} (h : decodeCommand b.cw = .error r) :
    endTransaction c b = b.finish := by
  simp only [endTransaction, h]

theorem endTransaction_rd (c : Config) (b : Block) : (endTransaction c b).rd = b.rd := by
  cases hd : decodeCommand b.cw with
  | error r => rw [endTransaction_noCommand hd, Block.finish_rd]
  | ok i =>
    rw [endTransaction_command hd]
    exact (Block.advance_keeps _ _).2.1.trans (collect_keeps c i b).1

theorem endTransaction_keepsUncollected (c : Config) (b : Block) : b.KeepsUncollected (endTransaction c b) := by
  cases hd : decodeCommand b.cw with
  | error r =>
    rw [endTransaction_noCommand hd]
    exact ⟨rfl, rfl, fun _ => rfl, fun _ => ⟨rfl, rfl⟩, fun _ => rfl⟩
  | ok i =>
    obtain ⟨-, hcw, -, -, herr, -, -, -⟩ := collect_keeps c i b
    obtain ⟨hv, hrw, hbuf⟩ := collect_data c i b
    rw [endTransaction_command hd]
    obtain ⟨hv', -, hrw', hbuf', hhi', hcw', herr', -⟩ :=
      Block.advance_keeps (collect c i b) (transactionsOf c b i)[b.ec.toNat + 1]?
    have isNot {j : Instr} (h : (Except.ok i : Except Reject Instr) ≠ .ok j) : i ≠ j := fun hi => h (congrArg _ hi)
    refine ⟨hcw'.trans hcw, herr'.trans herr, fun h => ?_, fun h => ?_, fun h => ?_⟩ <;> rw [hd] at h
    · exact hv'.trans (hv fun ra => isNot (h ra))
    · obtain ⟨hrw, hhi⟩ := hrw fun ra => isNot (h ra)
      exact ⟨hrw'.trans hrw, hhi'.trans hhi⟩
    · exact hbuf'.trans (hbuf fun ra => isNot (h ra))

/-- Settles O24: the end of the transaction leaves the byte in `RD`. -/
theorem getCompletes : Obligations.GetCompletes :=
  fun s => ⟨_, exec_get s, rfl, rfl, endTransaction_rd _ _⟩

/-! ### The frame of a micro-operation -/

/-- R111: a micro-operation emits its word, once. -/
theorem exec_microOp_trace {i : Instr} (hi : i.isCommand = false) {s t : State} (h : exec i s = .next t) :
    ∃ u a, encode i = .microOp u ∧ t.trace = s.trace ++ [⟨u, a⟩] := by
  obtain ⟨a, e, b, rfl⟩ := exec_microOp hi h
  obtain ⟨u, hu, -⟩ := decodeMicroOp_encode hi
  exact ⟨u, a, hu, by rw [hu]; simp⟩

/-- What no micro-operation changes outside the block and the environment. -/
theorem exec_microOp_surroundings {i : Instr} (hi : i.isCommand = false) {s t : State} (h : exec i s = .next t) :
    t.cfg = s.cfg ∧ t.turns = s.turns ∧ t.held = s.held ∧ t.reads = s.reads ∧ s.trace <+: t.trace := by
  obtain ⟨hcfg, hturns, hheld, hreads⟩ := exec_microOp_frame hi h
  obtain ⟨u, a, -, htrace⟩ := exec_microOp_trace hi h
  exact ⟨hcfg, hturns, hheld, hreads, _, htrace.symm⟩

/-- A micro-operation other than `GET` leaves `RD`, and every micro-operation leaves what is not collected. -/
theorem exec_microOp_data {i : Instr} (hi : i.isCommand = false) {s t : State} (h : exec i s = .next t) :
    s.block.KeepsUncollected t.block ∧ (i ≠ .get → t.block.rd = s.block.rd) := by
  by_cases hget : i = .get
  · subst hget
    rw [(exec_get_next h).2]
    obtain ⟨hcw, herr, hv, hrw, hbuf⟩ :=
      endTransaction_keepsUncollected s.cfg { s.block with rd := s.env.byteAnswer }
    exact ⟨⟨hcw, herr, hv, hrw, hbuf⟩, fun hne => absurd rfl hne⟩
  by_cases hpoll : i = .poll
  · subst hpoll
    rw [(exec_poll_next h).2]
    cases s.env.busyAnswer with
    | true => exact ⟨Block.keepsUncollected_refl _, fun _ => rfl⟩
    | false =>
      rw [Block.afterPoll_false]
      split
      · exact ⟨endTransaction_keepsUncollected _ _, fun _ => endTransaction_rd _ _⟩
      · exact ⟨Block.keepsUncollected_nextPhase _, fun _ => rfl⟩
  · rw [exec_microOp_nextPhase hi hpoll hget h]
    exact ⟨Block.keepsUncollected_nextPhase _, fun _ => rfl⟩

/-! ### The device memory -/

theorem Env.ctrl_burstStart_slv {e e' : Env} (h : e.ctrl .burstStart = some e') : e'.slv = e.slv := by
  cases hm : e.mode with
  | free =>
    cases (Env.ctrl_free hm _).symm.trans h
    rfl
  | reference =>
    rw [(Env.ctrl_reference hm).1, Env.refBurstStart] at h
    split at h <;> cases h
    rfl

/-- R122: the byte that `slave_write` stores is what its address then reads as. -/
theorem Env.slaveWrite_read_same {e : Env} {sa : SlaveAddr} {l : List Byte} {x d : Byte}
    (h : e.slaveStore sa l = some (x, d)) : (e.slaveWrite sa l).slv.read x = some d := by
  simp only [Env.slaveWrite, h, Memory.read_write_same]

/-- R122: every other address reads as before. -/
theorem Env.slaveWrite_read_other {e : Env} {sa : SlaveAddr} {l : List Byte} {y : Byte}
    (h : ∀ x d, e.slaveStore sa l = some (x, d) → y ≠ x) : (e.slaveWrite sa l).slv.read y = e.slv.read y := by
  simp only [Env.slaveWrite]
  split
  · next x d hs => exact Memory.read_write_other (h x d hs) d
  · rfl

/-- R122: "no store without a second byte". -/
theorem Env.slaveWrite_slv_single (e : Env) (sa : SlaveAddr) (x : Byte) : (e.slaveWrite sa [x]).slv = e.slv := by
  have hnone : e.slaveStore sa [x] = none := by
    simp [Env.slaveStore]
  simp only [Env.slaveWrite, hnone]

/-- R121: what a `BURST_FINISH` does to the device memory. -/
theorem Env.ctrl_burstFinish_slv {e e' : Env} (h : e.ctrl .burstFinish = some e') :
    (e.mode = .free ∧ e'.slv = e.slv) ∨
    (e.mode = .reference ∧ ∃ o, e.opn = some o ∧ e'.slv = (e.slaveWrite o.sa (o.bytes ++ [e.mdr])).slv) := by
  cases hm : e.mode with
  | free =>
    cases (Env.ctrl_free hm _).symm.trans h
    exact .inl ⟨rfl, rfl⟩
  | reference =>
    rw [(Env.ctrl_reference hm).2.1, Env.refBurstFinish] at h
    split at h <;> cases h
    next o _ ho => exact .inr ⟨rfl, o, ho, rfl⟩

theorem Env.closeOpen_of_none {e : Env} (h : e.opn = none) : e.closeOpen = e := by
  simp only [Env.closeOpen, h]

theorem Env.closeOpen_of_some {e : Env} {o : OpenWrite} (h : e.opn = some o) :
    e.closeOpen = { e.slaveWrite o.sa o.bytes with opn := none } := by
  simp only [Env.closeOpen, h]

/-- R121: only a `SINGLE` in read direction, whose START ends an open transaction, can change the device memory. -/
theorem Env.ctrl_single_slv {e e' : Env} (h : e.ctrl .single = some e') :
    e'.slv = if e.mode = .reference ∧ e.msaDir = .read then e.closeOpen.slv else e.slv := by
  cases hm : e.mode with
  | free =>
    cases (Env.ctrl_free hm _).symm.trans h
    simp
  | reference =>
    rw [(Env.ctrl_reference hm).2.2, Env.refSingle] at h
    cases hdir : e.msaDir <;> rw [hdir] at h <;> cases h
    · exact Env.slaveWrite_slv_single e.drawBusyn e.msaAddr e.mdr
    · simp only [and_self, if_true, Env.closeOpen, Env.drawBusyn_opn]
      cases e.opn <;> rfl

/-- Settles O27: `exec_microOp_data` says what `POLL` and `GET` leave, and these five store nothing. -/
theorem microOpFrame : Obligations.MicroOpFrame := by
  intro i s t hi hfinish hsingle h
  obtain ⟨⟨hcw, herr, hv, hrw, hbuf⟩, hrd⟩ := exec_microOp_data hi h
  refine ⟨exec_microOp_surroundings hi h, fun a => ?_, fun hpoll hget => ?_, ⟨hcw, herr⟩, hrd, hv, hrw, hbuf⟩
  · suffices hslv : t.env.slv = s.env.slv by rw [hslv]
    cases i with
    | setaddr sa dir => cases h; simp
    | put x => cases h; simp
    | ctrlBurstStart =>
      obtain ⟨e, he, rfl⟩ := emitCtrl_next h
      simpa using Env.ctrl_burstStart_slv he
    | ctrlBurstFinish => exact absurd rfl hfinish
    | ctrlSingle => exact absurd rfl hsingle
    | poll => cases h; simp
    | get => cases h; simp
    | _ => cases hi
  · rw [exec_microOp_nextPhase hi hpoll hget h]
    rfl

/-- Settles O28: the controller sends the bytes of the open transaction, with `MDR` after them for a `BURST_FINISH`, and
the slave stores what `slaveStore` gives for them. -/
theorem storingMicroOpFrame : Obligations.StoringMicroOpFrame := by
  refine ⟨fun s t h => ⟨?_, exec_microOp_surroundings rfl h, ?_⟩,
    fun s t h => ⟨?_, exec_microOp_surroundings rfl h, ?_⟩⟩
  · exact exec_microOp_nextPhase (i := .ctrlBurstFinish) rfl nofun nofun h
  · obtain ⟨e, he, rfl⟩ := emitCtrl_next h
    simp only [State.withBlock_env, State.emit_env]
    obtain ⟨hm, hslv⟩ | ⟨hm, o, ho, hslv⟩ := Env.ctrl_burstFinish_slv he <;> rw [hslv]
    · exact ⟨fun _ _ => rfl, fun o x d hm' => by simp [hm] at hm'⟩
    · refine ⟨fun a ha => Env.slaveWrite_read_other fun x d => ha o x d ho, fun o' x d _ ho' hs => ?_⟩
      cases ho.symm.trans ho'
      exact Env.slaveWrite_read_same hs
  · exact exec_microOp_nextPhase (i := .ctrlSingle) rfl nofun nofun h
  · obtain ⟨e, he, rfl⟩ := emitCtrl_next h
    simp only [State.withBlock_env, State.emit_env, Env.ctrl_single_slv he]
    refine ⟨fun a ha => ?_, fun hdir a => by simp [hdir], fun o x d hm hdir ho hs => ?_⟩
    · split
      · cases ho : s.env.opn with
        | none => rw [Env.closeOpen_of_none ho]
        | some o => rw [Env.closeOpen_of_some ho]; exact Env.slaveWrite_read_other fun x d => ha o x d ho
      · rfl
    · rw [if_pos ⟨hm, hdir⟩, Env.closeOpen_of_some ho]
      exact Env.slaveWrite_read_same hs

/-! ### The trace -/

theorem hostWrite_trace {n : Nat} {w : Word} {s t : State} (h : hostWrite n w s = .next t) : t.trace = s.trace := by
  obtain ⟨b, hb⟩ := hostWrite_withBlock n w s
  cases hb.symm.trans h
  rfl

theorem hostMove_trace {m : HostMove} (hm : m ≠ .reset) {s t : State} (h : hostMove m s = .next t) :
    t.trace = s.trace := by
  cases m with
  | write n w =>
    simp only [hostMove] at h
    split at h
    · cases h; rfl
    · exact hostWrite_trace h
  | read n => cases h; rfl
  | wait => cases h; rfl
  | reset => exact absurd rfl hm

/-- Settles O43: of all that a step can be, only a micro-operation appends to the trace, and only the reset input takes
from it. -/
theorem traceGrowth : Obligations.TraceGrowth := by
  refine ⟨fun s t i hop h => exec_microOp_trace (currentOp_microOp hop) h, fun s t n w => hostWrite_trace,
    fun s t m hm => hostMove_trace hm, fun s t h => ?_⟩
  obtain ⟨w, -, -, h⟩ | ⟨rest, i, hb, hop, h⟩ | ⟨rest, -, rfl⟩ | ⟨m, rest, hturns, -, h⟩ := step_cases h
  · exact .inr (.inl (hostWrite_trace (s := { s with held := none }) h))
  · obtain ⟨u, a, -, ht⟩ := exec_microOp_trace (currentOp_microOp hop) h
    exact .inl ⟨hb, _, ht⟩
  · exact .inr (.inl rfl)
  · by_cases hm : m = .reset
    · subst hm
      cases h
      exact .inr (.inr ⟨rest, hturns, rfl⟩)
    · exact .inr (.inl (hostMove_trace (s := { s with turns := rest }) hm h))

/-! ### Two runs with the same block

What a step does is decided by the block, the parameters and the host's side of the port; the trace and the environment
come in with a micro-operation alone. -/

/-- A command answers the same block from any two states with the same block and parameters. -/
theorem exec_command_congr {i : Instr} (hi : i.isCommand = true) {s s' : State} (hb : s'.block = s.block)
    (hc : s'.cfg = s.cfg) : ∃ b, exec i s = .next (s.withBlock b) ∧ exec i s' = .next (s'.withBlock b) := by
  cases i with
  | recvb sa ra => exact ⟨_, rfl, by simp only [exec, execRecvb, hb]⟩
  | sendb sa ra d => exact ⟨_, rfl, by simp only [exec, execSendb, hb]⟩
  | dec ra d => simp only [exec, execDec, hb, hc]; cases fieldsOf s.cfg ra <;> exact ⟨_, rfl, rfl⟩
  | enc ra => simp only [exec, execEnc, hb, hc]; cases fieldsOf s.cfg ra <;> exact ⟨_, rfl, rfl⟩
  | rdreg ra => simp only [exec, execRdreg, hb, hc]; cases fieldsOf s.cfg ra <;> exact ⟨_, rfl, rfl⟩
  | wrreg ra => simp only [exec, execWrreg, hb, hc]; cases fieldsOf s.cfg ra <;> exact ⟨_, rfl, rfl⟩
  | rdpair ra => simp only [exec, execRdpair, hb, hc]; cases pairOf s.cfg ra <;> exact ⟨_, rfl, rfl⟩
  | rdarr ra idx =>
    simp only [exec, execRdarr, hb, hc]
    cases arrayOf s.cfg ra with
    | none => exact ⟨_, rfl, rfl⟩
    | some e => dsimp only; cases indexLegal e idx <;> exact ⟨_, rfl, rfl⟩
  | wrarr ra idx d =>
    simp only [exec, execWrarr, hb, hc]
    cases arrayOf s.cfg ra with
    | none => exact ⟨_, rfl, rfl⟩
    | some e => dsimp only; cases indexLegal e idx <;> exact ⟨_, rfl, rfl⟩
  | rdbank ra => simp only [exec, execRdbank, hb, hc]; cases arrayOf s.cfg ra <;> exact ⟨_, rfl, rfl⟩
  | wrbank ra => simp only [exec, execWrbank, hb, hc]; cases arrayOf s.cfg ra <;> exact ⟨_, rfl, rfl⟩
  | _ => cases hi

theorem hostWrite_congr (n : Nat) (w : Word) {s s' : State} (hb : s'.block = s.block) (hc : s'.cfg = s.cfg) :
    ∃ b, hostWrite n w s = .next (s.withBlock b) ∧ hostWrite n w s' = .next (s'.withBlock b) := by
  by_cases hn : n = 0
  · subst hn
    cases hd : decodeCommand w with
    | ok i =>
      rw [hostWrite_command hd, hostWrite_command hd]
      exact exec_command_congr (decodeCommand_isCommand hd) hb hc
    | error r => exact ⟨s.block.refuseIllegal w, by simp [hostWrite, hd], by simp [hostWrite, hd, hb]⟩
  · rw [hostWrite_register s w hn, hostWrite_register s' w hn, hb]
    exact ⟨_, rfl, rfl⟩

/-- The same machine with another trace and in another environment. -/
def State.elsewhere (s : State) (l : List TraceEntry) (e : Env) : State :=
  { s with trace := l, env := e }

section
variable (s : State) (l : List TraceEntry) (e : Env)

@[simp] theorem State.elsewhere_block : (s.elsewhere l e).block = s.block := rfl
@[simp] theorem State.elsewhere_turns : (s.elsewhere l e).turns = s.turns := rfl
@[simp] theorem State.elsewhere_held : (s.elsewhere l e).held = s.held := rfl

end

/-- The first outcome is a next state in the environment `e`, and the second is the same state but for the trace and the
environment `e'`. -/
def SameElsewhere (e e' : Env) (r r' : Result) : Prop :=
  ∃ t l, r = .next t ∧ t.env = e ∧ r' = .next (t.elsewhere l e')

theorem hostWrite_elsewhere (n : Nat) (w : Word) (s : State) (l : List TraceEntry) (e : Env) :
    SameElsewhere s.env e (hostWrite n w s) (hostWrite n w (s.elsewhere l e)) := by
  obtain ⟨b, hb, hb'⟩ := hostWrite_congr n w (s := s) (s' := s.elsewhere l e) rfl rfl
  exact ⟨_, l, hb, rfl, hb'⟩

theorem hostMove_elsewhere (m : HostMove) (s : State) (l : List TraceEntry) (e : Env) :
    SameElsewhere s.env e (hostMove m s) (hostMove m (s.elsewhere l e)) := by
  cases m with
  | write n w =>
    cases hb : s.block.busy with
    | true =>
      simp only [hostMove, State.elsewhere_block, hb, if_true]
      exact ⟨{ s with held := some ⟨n, w⟩ }, l, rfl, rfl, rfl⟩
    | false => simpa [hostMove, hb] using hostWrite_elsewhere n w s l e
  | read n => exact ⟨_, l, rfl, rfl, rfl⟩
  | wait => exact ⟨_, l, rfl, rfl, rfl⟩
  | reset => exact ⟨_, [], rfl, rfl, rfl⟩

/-- The choice between the agents reads neither the trace nor the environment: what holds of the outcomes of the host
write, the host move or the turn of the sequencer that it comes to, here and elsewhere, holds of those of the step. -/
theorem step_elsewhere {P : Result → Result → Prop} {s : State} {l : List TraceEntry} {e : Env}
    (hwrite : ∀ n w, P (hostWrite n w { s with held := none }) (hostWrite n w ({ s with held := none }.elsewhere l e)))
    (hmove : ∀ m turns, P (hostMove m { s with turns := turns }) (hostMove m ({ s with turns := turns }.elsewhere l e)))
    (hseq : ∀ turns, P (sequencerTurn { s with turns := turns })
      (sequencerTurn ({ s with turns := turns }.elsewhere l e))) :
    P (step s) (step (s.elsewhere l e)) := by
  have held : P (takeTurnHeld s) (takeTurnHeld (s.elsewhere l e)) := by
    unfold takeTurnHeld
    simp only [State.elsewhere_turns]
    rcases s.turns with _ | ⟨m | _, rest⟩
    · exact hseq s.turns
    · cases m with
      | reset => exact hmove .reset rest
      | _ => exact hseq s.turns
    · exact hseq rest
  have free : P (takeTurn s) (takeTurn (s.elsewhere l e)) := by
    unfold takeTurn
    simp only [State.elsewhere_turns]
    rcases s.turns with _ | ⟨m | _, rest⟩
    · exact hseq s.turns
    · exact hmove m rest
    · exact hseq rest
  cases hh : s.held with
  | none => simpa only [step, nextStep, State.elsewhere_held, hh] using free
  | some w =>
    cases hb : s.block.busy with
    | true => simpa only [step, nextStep, State.elsewhere_held, State.elsewhere_block, hh, hb, if_true] using held
    | false =>
      rw [step_of_held hb hh, step_of_held (s := s.elsewhere l e) hb hh]
      exact hwrite w.num w.word

/-- R111: a micro-operation does the same whatever the trace is. -/
theorem exec_microOp_withTrace {i : Instr} (hi : i.isCommand = false) {s t : State} (h : exec i s = .next t)
    (l : List TraceEntry) : ∃ l', exec i { s with trace := l } = .next { t with trace := l' } := by
  have ctrl (c : Ctrl) (h : exec (ctrlInstr c) s = .next t) :
      ∃ l', exec (ctrlInstr c) { s with trace := l } = .next { t with trace := l' } := by
    obtain ⟨e, he, -⟩ := emitCtrl_next ((exec_ctrlInstr c s).symm.trans h)
    cases (exec_ctrl_of_some he).symm.trans h
    exact ⟨_, exec_ctrl_of_some (s := { s with trace := l }) he⟩
  cases i with
  | setaddr sa dir => cases h; exact ⟨_, rfl⟩
  | put x => cases h; exact ⟨_, rfl⟩
  | ctrlBurstStart => exact ctrl .burstStart h
  | ctrlBurstFinish => exact ctrl .burstFinish h
  | ctrlSingle => exact ctrl .single h
  | poll => cases h; exact ⟨_, rfl⟩
  | get => cases h; exact ⟨_, rfl⟩
  | _ => cases hi

/-- R119: what a micro-operation does to the block depends on the environment's answers alone. -/
theorem exec_microOp_block_congr {i : Instr} (hi : i.isCommand = false) {s s' t t' : State} (hb : s'.block = s.block)
    (hc : s'.cfg = s.cfg) (hbusy : s'.env.busyAnswer = s.env.busyAnswer)
    (hbyte : s'.env.byteAnswer = s.env.byteAnswer) (h : exec i s = .next t) (h' : exec i s' = .next t') :
    t'.block = t.block := by
  by_cases hget : i = .get
  · subst hget
    rw [(exec_get_next h).2, (exec_get_next h').2, hb, hc, hbyte]
  by_cases hpoll : i = .poll
  · subst hpoll
    rw [(exec_poll_next h).2, (exec_poll_next h').2, hb, hc, hbusy]
  · rw [exec_microOp_nextPhase hi hpoll hget h, exec_microOp_nextPhase hi hpoll hget h', hb]

/-- Two outcomes of which the second is a next state wherever the first is one, with the same state but for the trace. -/
def SameButTrace (r r' : Result) : Prop :=
  ∀ t, r = .next t → ∃ l, r' = .next { t with trace := l }

/-- Two outcomes that agree on the block wherever both are next states. -/
def SameBlock (r r' : Result) : Prop :=
  ∀ t t', r = .next t → r' = .next t' → t'.block = t.block

theorem SameElsewhere.sameButTrace {e : Env} {r r' : Result} (h : SameElsewhere e e r r') : SameButTrace r r' := by
  obtain ⟨t, l, rfl, rfl, rfl⟩ := h
  rintro _ ⟨⟩
  exact ⟨l, rfl⟩

theorem SameElsewhere.sameBlock {e e' : Env} {r r' : Result} (h : SameElsewhere e e' r r') : SameBlock r r' := by
  obtain ⟨t, l, rfl, -, rfl⟩ := h
  rintro _ _ ⟨⟩ ⟨⟩
  rfl

theorem sequencerTurn_sameButTrace (s : State) (l : List TraceEntry) :
    SameButTrace (sequencerTurn s) (sequencerTurn { s with trace := l }) := by
  intro t h
  obtain ⟨hb, i, hop, h⟩ | ⟨hb, rfl⟩ := sequencerTurn_cases h
  · simpa only [sequencerTurn, hb, if_true, sequencerStep, hop] using exec_microOp_withTrace (currentOp_microOp hop) h l
  · exact ⟨l, by simp [sequencerTurn, hb]⟩

theorem sequencerTurn_sameBlock {s s' : State} (hb : s'.block = s.block) (hc : s'.cfg = s.cfg)
    (hbusy : s'.env.busyAnswer = s.env.busyAnswer) (hbyte : s'.env.byteAnswer = s.env.byteAnswer) :
    SameBlock (sequencerTurn s) (sequencerTurn s') := by
  intro t t' h h'
  obtain ⟨hrun, i, hop, h⟩ | ⟨hidle, rfl⟩ := sequencerTurn_cases h
  · obtain ⟨-, i', hop', h'⟩ | ⟨hidle', -⟩ := sequencerTurn_cases h'
    · rw [hb, hc, hop] at hop'
      cases hop'
      exact exec_microOp_block_congr (currentOp_microOp hop) hb hc hbusy hbyte h h'
    · simp [hb, hrun] at hidle'
  · obtain ⟨hrun', -⟩ | ⟨-, rfl⟩ := sequencerTurn_cases h'
    · simp [hb, hidle] at hrun'
    · exact hb

/-- Settles O44: a host write or move does the same whatever the trace, and so does a micro-operation. -/
theorem traceNeverRead : Obligations.TraceNeverRead := by
  intro s t l h
  obtain ⟨l', h'⟩ := step_elsewhere (P := SameButTrace) (l := l) (e := s.env)
    (fun n w => (hostWrite_elsewhere n w _ l _).sameButTrace) (fun m turns => (hostMove_elsewhere m _ l _).sameButTrace)
    (fun turns => sequencerTurn_sameButTrace _ l) t h
  exact ⟨_, h', rfl⟩

/-- Settles O45: a host write or move asks the environment nothing, and a micro-operation for its answers alone. -/
theorem environmentSeenThroughAnswers : Obligations.EnvironmentSeenThroughAnswers := by
  intro s t t' e hbusy hbyte h h'
  exact step_elsewhere (P := SameBlock) (l := s.trace) (e := e)
    (fun n w => (hostWrite_elsewhere n w _ _ e).sameBlock) (fun m turns => (hostMove_elsewhere m _ _ e).sameBlock)
    (fun turns => sequencerTurn_sameBlock rfl rfl hbusy hbyte) t t' h h'

/-! ### A transaction, phase by phase, in either environment (R133, R136) -/

theorem run_trans {m n : Nat} {s t u : State} (h : run m s = .next t) (h' : run n t = .next u) :
    run (m + n) s = .next u := by
  induction m generalizing s with
  | zero => cases h; rwa [Nat.zero_add]
  | succ m ih =>
    rw [Nat.succ_add]
    simp only [run] at h ⊢
    split at h
    · exact ih h
    · cases h
    · cases h

theorem run_one (s : State) : run 1 s = step s := by
  simp only [run]
  cases step s <;> rfl

/-- A command runs and the host makes no move. Unlike `State.RunsQuietly`, this does not ask for the invariant. -/
structure State.Undisturbed (s : State) : Prop where
  busy : s.block.busy = true
  quiet : s.turns = []

/-- The state `s` with its transaction come to phase `p`, having emitted `l` and led the environment to `e`. -/
def State.atPhase (s : State) (p : BitVec 3) (l : List TraceEntry) (e : Env) : State :=
  { s with block := { s.block with ph := p }, trace := s.trace ++ l, env := e }

theorem State.onPort_atPhase (s : State) (p q : BitVec 3) (l : List TraceEntry) (e e' : Env) (u : MicroWord)
    (a : Answer) : (s.atPhase p l e).onPort u a { s.block with ph := q } e' = s.atPhase q (l ++ [⟨u, a⟩]) e' := by
  simp only [State.onPort, State.atPhase, List.append_assoc]

section
variable {s : State} (hs : s.Undisturbed) {p : BitVec 3} {l : List TraceEntry} {e : Env}
include hs

/-- R130: the step is the micro-operation of the phase. -/
theorem run_one_atPhase {i : Instr} (hop : currentOp s.cfg { s.block with ph := p } = some i) :
    run 1 (s.atPhase p l e) = exec i (s.atPhase p l e) := by
  have hstep := step_of_quiet (s := s.atPhase p l e) hs.busy hs.quiet
  rw [run_one, hstep, sequencerStep]
  simp only [State.atPhase, hop]

theorem run_setaddr {sa : SlaveAddr} {dir : Dir}
    (hop : currentOp s.cfg { s.block with ph := p } = some (.setaddr sa dir)) :
    run 1 (s.atPhase p l e) =
      .next (s.atPhase (p + 1#3) (l ++ [⟨setaddrWord sa dir, .nothing⟩]) (e.setAddr (sa ++ dir.bit))) := by
  rw [run_one_atPhase hs hop, exec_setaddr, ← State.onPort_atPhase]
  rfl

theorem run_put {x : Byte} (hop : currentOp s.cfg { s.block with ph := p } = some (.put x)) :
    run 1 (s.atPhase p l e) = .next (s.atPhase (p + 1#3) (l ++ [⟨putWord x, .nothing⟩]) (e.put x)) := by
  rw [run_one_atPhase hs hop, exec_put, ← State.onPort_atPhase]
  rfl

theorem run_ctrl {c : Ctrl} {e' : Env} (hop : currentOp s.cfg { s.block with ph := p } = some (ctrlInstr c))
    (hc : e.ctrl c = some e') :
    run 1 (s.atPhase p l e) = .next (s.atPhase (p + 1#3) (l ++ [⟨ctrlWord c, .nothing⟩]) e') := by
  rw [run_one_atPhase hs hop, exec_ctrl_of_some (s := s.atPhase p l e) hc, ← State.onPort_atPhase]
  rfl

theorem run_poll (hop : currentOp s.cfg { s.block with ph := p } = some .poll) :
    run 1 (s.atPhase p l e) = .next ((s.atPhase p (l ++ [⟨0x300#11, .busy e.busyAnswer⟩]) e.afterPoll).withBlock
      ({ s.block with ph := p }.afterPoll s.cfg e.busyAnswer)) := by
  rw [run_one_atPhase hs hop, exec_poll, State.onPort, State.withBlock]
  simp only [State.atPhase, List.append_assoc]

theorem run_get (hop : currentOp s.cfg { s.block with ph := p } = some .get) :
    run 1 (s.atPhase p l e) = .next ((s.atPhase p (l ++ [⟨0x400#11, .data e.byteAnswer⟩]) e.afterGet).withBlock
      (endTransaction s.cfg { s.block with ph := p, rd := e.byteAnswer })) := by
  rw [run_one_atPhase hs hop, exec_get, State.onPort, State.withBlock]
  simp only [State.atPhase, List.append_assoc]

end

/-- The environment answers the coming `POLL`s `n` times with 1 and then with 0. -/
def Env.waits : Nat → Env → Prop
  | 0, e => e.busyAnswer = false
  | n + 1, e => e.busyAnswer = true ∧ Env.waits n e.afterPoll

/-- R132: a busy-wait that is answered busy `n` times. -/
theorem run_wait {s : State} (hs : s.Undisturbed) {p : BitVec 3}
    (hop : currentOp s.cfg { s.block with ph := p } = some .poll) {n : Nat} {l : List TraceEntry} {e : Env}
    (hw : e.waits n) : run (n + 1) (s.atPhase p l e) =
      .next ((s.atPhase p (l ++ waitTrace n) (e.afterPolls (n + 1))).withBlock
        ({ s.block with ph := p }.afterPoll s.cfg false)) := by
  induction n generalizing l e with
  | zero =>
    have hpoll := run_poll hs (l := l) (e := e) hop
    rwa [show e.busyAnswer = false from hw] at hpoll
  | succ n ih =>
    obtain ⟨hbusy, hrest⟩ := hw
    have hpoll := run_poll hs (l := l) (e := e) hop
    rw [hbusy, Block.afterPoll_true] at hpoll
    have hwait := ih (l := l ++ [⟨0x300#11, .busy true⟩]) hrest
    rw [List.append_assoc] at hwait
    have hrun := run_trans hpoll hwait
    rwa [Nat.add_comm 1] at hrun

/-- Before the last phase of a send, a busy-wait leads to the next phase. -/
theorem run_wait_next {s : State} (hs : s.Undisturbed) {p : BitVec 3}
    (hop : currentOp s.cfg { s.block with ph := p } = some .poll) (hlast : ¬(s.block.tk = .send ∧ p = 6#3)) {n : Nat}
    {l : List TraceEntry} {e : Env} (hw : e.waits n) : run (n + 1) (s.atPhase p l e) =
      .next (s.atPhase (p + 1#3) (l ++ waitTrace n) (e.afterPolls (n + 1))) := by
  rw [run_wait hs hop hw, Block.afterPoll_false, if_neg hlast]
  rfl

/-- R121: a send of the byte `d` to register `ra` meets waits answered busy `a` and `b` times and leads from `e` to
`e'`. -/
def Env.Sends (e : Env) (sa : SlaveAddr) (ra d : Byte) (a b : Nat) (e' : Env) : Prop :=
  ∃ e₁ e₂, ((e.setAddr (sa ++ Dir.write.bit)).put ra).ctrl .burstStart = some e₁ ∧ e₁.waits a ∧
    ((e₁.afterPolls (a + 1)).put d).ctrl .burstFinish = some e₂ ∧ e₂.waits b ∧ e' = e₂.afterPolls (b + 1)

/-- R121: a receive from register `ra`, with `c` its first `CTRL`, meets waits answered busy `a` and `b` times and leads
from `e` to `e'`, which answers the `GET`. -/
def Env.Receives (e : Env) (c : Ctrl) (sa : SlaveAddr) (ra : Byte) (a b : Nat) (e' : Env) : Prop :=
  ∃ e₁ e₂, ((e.setAddr (sa ++ Dir.write.bit)).put ra).ctrl c = some e₁ ∧ e₁.waits a ∧
    ((e₁.afterPolls (a + 1)).setAddr (sa ++ Dir.read.bit)).ctrl .single = some e₂ ∧ e₂.waits b ∧
    e' = e₂.afterPolls (b + 1)

theorem State.atPhase_self {s : State} {p : BitVec 3} (hp : s.block.ph = p) : s.atPhase p [] s.env = s := by
  subst hp
  simp only [State.atPhase, List.append_nil]

/-- In the first half of a transaction the two phase tables agree. -/
theorem currentOp_firstHalf (c : Config) (b : Block) :
    currentOp c { b with ph := 0#3 } = some (.setaddr b.tsa .write) ∧
    currentOp c { b with ph := 1#3 } = some (.put b.tra) ∧
    currentOp c { b with ph := 2#3 } = some (ctrlInstr (b.phaseTwoCtrl c)) ∧
    currentOp c { b with ph := 3#3 } = some .poll := by
  simp only [currentOp, Block.phaseTwoCtrl]
  cases b.tk <;> exact ⟨rfl, rfl, rfl, rfl⟩

/-- R133, R136: phases 0 to 3. -/
theorem run_firstHalf {s : State} (hs : s.Undisturbed) (hp : s.block.ph = 0#3) {a : Nat} {e : Env}
    (hctrl : ((s.env.setAddr (s.block.tsa ++ Dir.write.bit)).put s.block.tra).ctrl (s.block.phaseTwoCtrl s.cfg) = some e)
    (hwait : e.waits a) : run (4 + a) s = .next (s.atPhase 4#3
      ([⟨setaddrWord s.block.tsa .write, .nothing⟩, ⟨putWord s.block.tra, .nothing⟩,
        ⟨ctrlWord (s.block.phaseTwoCtrl s.cfg), .nothing⟩] ++ waitTrace a) (e.afterPolls (a + 1))) := by
  obtain ⟨hop₀, hop₁, hop₂, hop₃⟩ := currentOp_firstHalf s.cfg s.block
  have h₀ := run_setaddr hs (l := []) (e := s.env) hop₀
  have h₁ := run_trans h₀ (run_put hs (p := 1#3) hop₁)
  have h₂ := run_trans h₁ (run_ctrl hs (p := 2#3) hop₂ hctrl)
  have h₃ := run_trans h₂ (run_wait_next hs (p := 3#3) hop₃ (by simp) hwait)
  rwa [State.atPhase_self hp, show 1 + 1 + 1 + (a + 1) = 4 + a by omega] at h₃

/-- R136, R138: a send transaction. -/
theorem run_send {s : State} (hs : s.Undisturbed) (hk : s.block.tk = .send) (hp : s.block.ph = 0#3) {a b : Nat}
    {e : Env} (he : s.env.Sends s.block.tsa s.block.tra s.block.twd a b e) :
    run (7 + a + b) s = .next { s with
      block := endTransaction s.cfg { s.block with ph := 6 },
      trace := s.trace ++ sendTrace s.block.tsa s.block.tra s.block.twd a b,
      env := e } := by
  obtain ⟨e₁, e₂, hstart, hwait₁, hfinish, hwait₂, rfl⟩ := he
  have hop (p : BitVec 3) : currentOp s.cfg { s.block with ph := p } = sendOp { s.block with ph := p } := by
    simp only [currentOp, hk]
  have hctrl : s.block.phaseTwoCtrl s.cfg = .burstStart := by simp only [Block.phaseTwoCtrl, hk]
  rw [← hctrl] at hstart
  have h₃ := run_firstHalf hs hp hstart hwait₁
  have h₄ := run_trans h₃ (run_put hs (p := 4#3) (x := s.block.twd) (hop 4#3))
  have h₅ := run_trans h₄ (run_ctrl hs (p := 5#3) (c := .burstFinish) (hop 5#3) hfinish)
  have h₆ := run_trans h₅ (run_wait hs (p := 6#3) (hop 6#3) hwait₂)
  rw [show 4 + a + 1 + 1 + (b + 1) = 7 + a + b by omega] at h₆
  rw [h₆, Block.afterPoll_false, if_pos ⟨hk, rfl⟩, hctrl]
  simp only [State.atPhase, State.withBlock, sendTrace, List.append_assoc, List.cons_append, List.nil_append]
  rfl

/-- R133, R135: a receive transaction. -/
theorem run_receive {s : State} (hs : s.Undisturbed) (hk : s.block.tk = .receive) (hp : s.block.ph = 0#3) {a b : Nat}
    {e : Env} (he : s.env.Receives s.cfg.recvWriteCtrl s.block.tsa s.block.tra a b e) :
    run (8 + a + b) s = .next { s with
      block := endTransaction s.cfg { s.block with ph := 7, rd := e.byteAnswer },
      trace := s.trace ++ receiveTrace s.cfg.recvWriteCtrl s.block.tsa s.block.tra a b e.byteAnswer,
      env := e.afterGet } := by
  obtain ⟨e₁, e₂, hfirst, hwait₁, hsingle, hwait₂, rfl⟩ := he
  have hop (p : BitVec 3) :
      currentOp s.cfg { s.block with ph := p } = some (receiveOp s.cfg { s.block with ph := p }) := by
    simp only [currentOp, hk]
  have hctrl : s.block.phaseTwoCtrl s.cfg = s.cfg.recvWriteCtrl := by simp only [Block.phaseTwoCtrl, hk]
  rw [← hctrl] at hfirst
  have h₃ := run_firstHalf hs hp hfirst hwait₁
  have h₄ := run_trans h₃ (run_setaddr hs (p := 4#3) (sa := s.block.tsa) (dir := .read) (hop 4#3))
  have h₅ := run_trans h₄ (run_ctrl hs (p := 5#3) (c := .single) (hop 5#3) hsingle)
  have h₆ := run_trans h₅ (run_wait_next hs (p := 6#3) (hop 6#3) (by simp [hk]) hwait₂)
  have h₇ := run_trans h₆ (run_get hs (p := 7#3) (hop 7#3))
  rw [show 4 + a + 1 + 1 + (b + 1) + 1 = 8 + a + b by omega] at h₇
  rw [h₇, hctrl]
  simp only [State.atPhase, State.withBlock, receiveTrace, List.append_assoc, List.cons_append, List.nil_append]
  rfl

/-! ### The two leaf commands, from the host's write on -/

/-- R81, R39: the accept step of a command that the host writes to `CMD` as its only move. -/
theorem run_acceptStep {s : State} {w : Word} {i : Instr} (hb : s.block.busy = false) (hh : s.held = none)
    (ht : s.turns = [.host (.write 0 w)]) (hd : decodeCommand w = .ok i) : run 1 s = exec i { s with turns := [] } := by
  rw [run_one, step_of_hostWrite hb hh ht, hostWrite_command hd]

/-- R139: the one transaction of `SENDB` ends the command. -/
theorem endTransaction_sendb (c : Config) {b : Block} {sa : SlaveAddr} {ra d : Byte} (hcw : b.cw = formatT 0x2 sa ra d)
    (hec : b.ec = 0#5) : endTransaction c b = b.finish := by
  have hd : decodeCommand b.cw = .ok (.sendb sa ra d) := decodeCommand_eq_ok_iff.mpr (hcw ▸ rfl)
  rw [endTransaction_command hd, hec]
  rfl

/-- R139: the one transaction of `RECVB` ends the command. -/
theorem endTransaction_recvb (c : Config) {b : Block} {sa : SlaveAddr} {ra : Byte} (hcw : b.cw = formatT 0x1 sa ra 0)
    (hec : b.ec = 0#5) : endTransaction c b = b.finish := by
  have hd : decodeCommand b.cw = .ok (.recvb sa ra) := decodeCommand_eq_ok_iff.mpr (hcw ▸ rfl)
  rw [endTransaction_command hd, hec]
  rfl

/-- R137: `SENDB`, in either environment. -/
theorem run_sendb {s : State} {sa : SlaveAddr} {ra d : Byte} (hb : s.block.busy = false) (hh : s.held = none)
    (ht : s.turns = [.host (.write 0 (formatT 0x2 sa ra d))]) {a b : Nat} {e : Env} (he : s.env.Sends sa ra d a b e) :
    run (1 + (7 + a + b)) s = .next { s with
      turns := [],
      block := { s.block with
        cw := formatT 0x2 sa ra d, busy := false, done := true, err := .none, ec := 0, ph := 0, tk := .send, tsa := sa,
        tra := ra, twd := d },
      trace := s.trace ++ sendTrace sa ra d a b,
      env := e } := by
  have haccept := run_acceptStep (i := .sendb sa ra d) hb hh ht (decodeCommand_eq_ok_iff.mpr rfl)
  rw [exec, execSendb] at haccept
  rw [run_trans haccept (run_send ⟨rfl, rfl⟩ rfl rfl he), endTransaction_sendb _ rfl rfl]
  rfl

/-- R134: `RECVB`, in either environment. -/
theorem run_recvb {s : State} {sa : SlaveAddr} {ra : Byte} (hb : s.block.busy = false) (hh : s.held = none)
    (ht : s.turns = [.host (.write 0 (formatT 0x1 sa ra 0))]) {a b : Nat} {e : Env}
    (he : s.env.Receives s.cfg.recvWriteCtrl sa ra a b e) :
    run (1 + (8 + a + b)) s = .next { s with
      turns := [],
      block := { s.block with
        cw := formatT 0x1 sa ra 0, rd := e.byteAnswer, busy := false, done := true, err := .none, ec := 0, ph := 0,
        tk := .receive, tsa := sa, tra := ra },
      trace := s.trace ++ receiveTrace s.cfg.recvWriteCtrl sa ra a b e.byteAnswer,
      env := e.afterGet } := by
  have haccept := run_acceptStep (i := .recvb sa ra) hb hh ht (decodeCommand_eq_ok_iff.mpr rfl)
  rw [exec, execRecvb] at haccept
  rw [run_trans haccept (run_receive ⟨rfl, rfl⟩ rfl rfl he), endTransaction_recvb _ rfl rfl]
  rfl

/-! ### The reference controller, `CTRL` by `CTRL` (R121) -/

/-- R93: `MSA` is an address and a direction. -/
theorem Env.msa_fields {e : Env} {sa : SlaveAddr} {dir : Dir} (h : e.msa = sa ++ dir.bit) :
    e.msaAddr = sa ∧ e.msaDir = dir := by
  have hset := Env.setAddr_reference (e := { e with mode := .reference }) rfl sa dir
  exact ⟨(Env.msa_congr h).1.trans hset.1, (Env.msa_congr h).2.trans hset.2⟩

theorem Env.setAddr_of_reference {e : Env} (hm : e.mode = .reference) (p : Byte) : e.setAddr p = { e with msa := p } := by
  simp only [Env.setAddr, hm]

theorem Env.put_of_reference {e : Env} (hm : e.mode = .reference) (x : Byte) : e.put x = { e with mdr := x } := by
  simp only [Env.put, hm]

theorem Env.setAddr_put_of_reference {e : Env} (hm : e.mode = .reference) (p x : Byte) :
    (e.setAddr p).put x = { e with msa := p, mdr := x } := by
  simp only [Env.setAddr, Env.put, hm]

/-- R121: `BUSYN` counts the busy answers down. -/
theorem Env.waits_reference {e : Env} (hm : e.mode = .reference) {n : Nat} (hn : e.busyn = n) : e.waits n := by
  induction n generalizing e with
  | zero => simp [Env.waits, Env.busyAnswer, hm, hn]
  | succ n ih => exact ⟨by simp [Env.busyAnswer, hm, hn], ih (by simpa using hm) (by simp [Env.afterPoll, hm, hn])⟩

/-- No number of `POLL`s changes anything but `BUSYN`. -/
theorem Env.afterPolls_reference {e : Env} (hm : e.mode = .reference) (n : Nat) :
    e.afterPolls n = { e with busyn := e.busyn - n } := by
  induction n generalizing e with
  | zero => rfl
  | succ n ih =>
    rw [Env.afterPolls, ih (by simpa using hm), Env.afterPoll, hm]
    simp only [Env.mk.injEq, true_and, and_true]
    omega

theorem Env.closeOpen_draws (e : Env) : e.closeOpen.draws = e.draws := by
  unfold Env.closeOpen
  split <;> rfl

/-- Ending the open transaction draws nothing. -/
theorem Env.closeOpen_drawBusyn (e : Env) : e.drawBusyn.closeOpen = e.closeOpen.drawBusyn := by
  simp only [Env.closeOpen, Env.drawBusyn_opn]
  cases e.opn <;> rfl

section
variable {e : Env} (hm : e.mode = .reference) {sa : SlaveAddr}
include hm

theorem Env.ctrl_burstStart_reference (hmsa : e.msa = sa ++ Dir.write.bit) :
    e.ctrl .burstStart = some { e.drawBusyn with
      opn := some ⟨sa, [e.mdr]⟩,
      wire := e.wire ++ [.start, .addr sa .write, e.ackOf sa, .data e.mdr, e.ackOf sa] } := by
  obtain ⟨haddr, hdir⟩ := Env.msa_fields hmsa
  simp only [(Env.ctrl_reference hm).1, Env.refBurstStart, hdir, haddr, Env.wireBurstStart]

theorem Env.ctrl_burstFinish_reference (hmsa : e.msa = sa ++ Dir.write.bit) {o : OpenWrite} (ho : e.opn = some o) :
    ∃ e', e.ctrl .burstFinish = some e' ∧ e'.mode = .reference ∧ e'.busyn = e.draws.countValue ∧
      e'.slv = (e.slaveWrite o.sa (o.bytes ++ [e.mdr])).slv ∧
      e'.wire = e.wire ++ [.data e.mdr, e.ackOf o.sa, .stop] := by
  obtain ⟨-, hdir⟩ := Env.msa_fields hmsa
  simp only [(Env.ctrl_reference hm).2.1, Env.refBurstFinish, hdir, ho, Env.wireBurstFinish]
  exact ⟨_, rfl, hm, rfl, rfl, rfl⟩

theorem Env.ctrl_single_write_reference (hmsa : e.msa = sa ++ Dir.write.bit) :
    e.ctrl .single = some { e.drawBusyn.slaveWrite sa [e.mdr] with
      wire := e.wire ++ [.start, .addr sa .write, e.ackOf sa, .data e.mdr, e.ackOf sa, .stop] } := by
  obtain ⟨haddr, hdir⟩ := Env.msa_fields hmsa
  simp only [(Env.ctrl_reference hm).2.2, Env.refSingle, hdir, haddr, Env.wireSingleWrite]

theorem Env.ctrl_single_read_reference (hmsa : e.msa = sa ++ Dir.read.bit) {x : Byte}
    (hx : e.drawBusyn.closeOpen.slaveReadValue sa = x) :
    ∃ e', e.ctrl .single = some e' ∧ e'.mode = .reference ∧ e'.busyn = e.draws.countValue ∧ e'.mdr = x ∧
      e'.slv = e.closeOpen.slv ∧
      e'.wire = e.wire ++
        [if e.opn.isSome then .repStart else .start, .addr sa .read, e.ackOf sa, .data x, .nack, .stop] := by
  obtain ⟨haddr, hdir⟩ := Env.msa_fields hmsa
  simp only [(Env.ctrl_reference hm).2.2, Env.refSingle, hdir, haddr, hx, Env.wireSingleRead]
  obtain ⟨hmode, -, -, -⟩ := Env.closeOpen_keeps e
  rw [Env.closeOpen_drawBusyn]
  exact ⟨_, rfl, hmode.trans hm, congrArg Draws.countValue e.closeOpen_draws, rfl, rfl, rfl⟩

end

/-- The reference controller after a `SETADDR(sa)` in write direction, a `PUT(ra)` and a `BURST_START`. -/
def Env.afterStart (e : Env) (sa : SlaveAddr) (ra : Byte) : Env :=
  { e.drawBusyn with
    msa := sa ++ Dir.write.bit, mdr := ra, opn := some ⟨sa, [ra]⟩,
    wire := e.wire ++ [.start, .addr sa .write, e.ackOf sa, .data ra, e.ackOf sa] }

theorem Env.ctrl_afterStart {e : Env} (hm : e.mode = .reference) (sa : SlaveAddr) (ra : Byte) :
    ((e.setAddr (sa ++ Dir.write.bit)).put ra).ctrl .burstStart = some (e.afterStart sa ra) := by
  rw [Env.setAddr_put_of_reference hm]
  exact Env.ctrl_burstStart_reference (e := { e with msa := sa ++ Dir.write.bit, mdr := ra }) hm rfl

/-- The same with a `SINGLE`, which sends the one byte and leaves `OPEN` alone. -/
def Env.afterSingle (e : Env) (sa : SlaveAddr) (ra : Byte) : Env :=
  { e.drawBusyn.slaveWrite sa [ra] with
    msa := sa ++ Dir.write.bit, mdr := ra,
    wire := e.wire ++ [.start, .addr sa .write, e.ackOf sa, .data ra, e.ackOf sa, .stop] }

theorem Env.ctrl_afterSingle {e : Env} (hm : e.mode = .reference) (sa : SlaveAddr) (ra : Byte) :
    ((e.setAddr (sa ++ Dir.write.bit)).put ra).ctrl .single = some (e.afterSingle sa ra) := by
  rw [Env.setAddr_put_of_reference hm]
  exact Env.ctrl_single_write_reference (e := { e with msa := sa ++ Dir.write.bit, mdr := ra }) hm rfl

/-- The numbers drawn for a transaction's two `CTRL`s, where two are scripted; drawing them leaves the bytes to come. -/
theorem Draws.countValue_of_two {d : Draws} {a b : Nat} {counts : List Nat} (h : d.count = a :: b :: counts) :
    d.countValue = a ∧ d.afterCount.countValue = b ∧ d.afterCount.afterCount.byteValue = d.byteValue := by
  simp only [Draws.countValue, Draws.afterCount, Draws.byteValue, h, List.head?_cons, Option.getD_some, and_self]

/-! ### `SENDB` -/

/-- R121: a send. The slave gets the two bytes when the transaction is finished, and the wire carries the address, the
two bytes and the receiver's answers. -/
theorem Env.sends_reference {e : Env} (hm : e.mode = .reference) {a b : Nat} {counts : List Nat}
    (hc : e.draws.count = a :: b :: counts) (sa : SlaveAddr) (ra d : Byte) :
    ∃ e', e.Sends sa ra d a b e' ∧ e'.slv = (e.slaveWrite sa [ra, d]).slv ∧
      e'.wire = e.wire ++ [.start, .addr sa .write, e.ackOf sa, .data ra, e.ackOf sa, .data d, e.ackOf sa, .stop] := by
  obtain ⟨ha, hb, -⟩ := Draws.countValue_of_two hc
  have hm₁ : (e.afterStart sa ra).mode = .reference := hm
  have hput (n : Nat) : ((e.afterStart sa ra).afterPolls n).put d =
      { e.afterStart sa ra with busyn := (e.afterStart sa ra).busyn - n, mdr := d } := by
    rw [Env.afterPolls_reference hm₁]
    exact Env.put_of_reference (e := { e.afterStart sa ra with busyn := (e.afterStart sa ra).busyn - n }) hm d
  obtain ⟨e₂, hfinish, hm₂, hbusyn, hslv, hwire⟩ := Env.ctrl_burstFinish_reference
    (e := ((e.afterStart sa ra).afterPolls (a + 1)).put d) (by rw [hput]; exact hm)
    (by rw [hput]; rfl) (by rw [hput]; rfl)
  rw [hput] at hbusyn hslv hwire
  refine ⟨_, ⟨_, e₂, Env.ctrl_afterStart hm sa ra, Env.waits_reference hm₁ ha, hfinish,
    Env.waits_reference hm₂ (hbusyn.trans hb), rfl⟩, ?_⟩
  rw [Env.afterPolls_reference hm₂]
  refine ⟨hslv, hwire.trans ?_⟩
  simp only [Env.afterStart, List.append_assoc]
  rfl

/-- Settles O59: the slave stores the byte if its address is the one sent, and the run is that of `SENDB` in any
environment. -/
theorem sendbInReference : Obligations.SendbInReference := by
  intro s sa ra d a b counts hb hh ht hm hc
  obtain ⟨e, hsends, hslv, hwire⟩ := Env.sends_reference hm hc sa ra d
  refine ⟨_, run_sendb hb hh ht hsends, rfl, rfl, rfl, rfl, fun hsa => ?_, fun hsa x => ?_⟩
  · have hstore : s.env.slaveStore sa [ra, d] = some (ra, d) := by simp only [Env.slaveStore, hsa, if_true]
    refine ⟨?_, fun x hx => ?_, ?_⟩
    · rw [hslv, Env.slaveWrite_read_same hstore]
    · rw [hslv]
      exact Env.slaveWrite_read_other fun y d' hs => by cases hstore.symm.trans hs; exact hx
    · rw [hwire]
      simp only [wireSend, Env.ackOf, hsa, if_true]
  · rw [hslv]
    exact Env.slaveWrite_read_other fun y d' hs => by simp [Env.slaveStore, hsa] at hs

/-! ### `RECVB` -/

/-- R122: `slave_write` of one byte sets `PTR`, at which a `slave_read` of the same slave address then reads. -/
theorem Env.slaveReadValue_slaveWrite (e : Env) (sa : SlaveAddr) (ra : Byte) :
    (e.slaveWrite sa [ra]).slaveReadValue sa = if sa = e.devAddr then e.slvAt ra else e.draws.byteValue := by
  rw [Env.slaveReadValue, Env.slaveWrite_devAddr, Env.slaveWrite_draws]
  by_cases hsa : sa = e.devAddr
  · have hptr : (e.slaveWrite sa [ra]).ptr = ra := if_pos hsa
    rw [if_pos hsa, if_pos hsa, hptr, Env.slvAt, Env.slaveWrite_slv_single, Env.slvAt]
  · rw [if_neg hsa, if_neg hsa]

/-- Ending the open transaction reads neither `BUSYN` nor `MSA`. -/
theorem Env.closeOpen_readdressed (e : Env) (n : Nat) (p : Byte) :
    { e with busyn := n, msa := p }.closeOpen = { e.closeOpen with busyn := n, msa := p } := by
  obtain ho | ⟨o, ho⟩ := Option.eq_none_or_eq_some e.opn
  · rw [Env.closeOpen_of_none ho, Env.closeOpen_of_none (e := { e with busyn := n, msa := p }) ho]
  · rw [Env.closeOpen_of_some ho, Env.closeOpen_of_some (e := { e with busyn := n, msa := p }) ho]
    rfl

/-- R121: the second half of a receive, after the first `CTRL` has led to `e₁`: the byte is what the slave answers once
the open transaction, if any, has ended. -/
theorem Env.receives_of_firstCtrl {e e₁ : Env} {c : Ctrl} {sa : SlaveAddr} {ra x : Byte}
    {a b : Nat} (hctrl : ((e.setAddr (sa ++ Dir.write.bit)).put ra).ctrl c = some e₁) (hm₁ : e₁.mode = .reference)
    (ha : e₁.busyn = a) (hb : e₁.draws.countValue = b) (hx : e₁.closeOpen.drawBusyn.slaveReadValue sa = x) :
    ∃ e', e.Receives c sa ra a b e' ∧ e'.mode = .reference ∧ e'.mdr = x ∧
      e'.slv = e₁.closeOpen.slv ∧ e'.wire = e₁.wire ++
        [if e₁.opn.isSome then .repStart else .start, .addr sa .read, e₁.ackOf sa, .data x, .nack, .stop] := by
  have hset (n : Nat) : (e₁.afterPolls n).setAddr (sa ++ Dir.read.bit) =
      { e₁ with busyn := e₁.busyn - n, msa := sa ++ Dir.read.bit } := by
    rw [Env.afterPolls_reference hm₁]
    exact Env.setAddr_of_reference (e := { e₁ with busyn := e₁.busyn - n }) hm₁ _
  obtain ⟨e₂, hsingle, hm₂, hbusyn, hmdr, hslv, hwire⟩ := Env.ctrl_single_read_reference (sa := sa) (x := x)
    (e := (e₁.afterPolls (a + 1)).setAddr (sa ++ Dir.read.bit)) (by rw [hset]; exact hm₁) (by rw [hset])
    (by rw [hset, Env.closeOpen_drawBusyn, Env.closeOpen_readdressed]; exact hx)
  rw [hset] at hbusyn hslv hwire
  rw [Env.closeOpen_readdressed] at hslv
  refine ⟨_, ⟨e₁, e₂, hctrl, Env.waits_reference hm₁ ha, hsingle,
    Env.waits_reference hm₂ (hbusyn.trans hb), rfl⟩, ?_⟩
  rw [Env.afterPolls_reference hm₂]
  exact ⟨hm₂, hmdr, hslv, hwire⟩

/-- R121: a receive. The byte is what the device holds at the address sent, or a draw if no device answers. -/
theorem Env.receives_reference {e : Env} (hm : e.mode = .reference) {a b : Nat} {counts : List Nat}
    (hc : e.draws.count = a :: b :: counts) {c : Ctrl} (hlegal : c ≠ .burstFinish)
    (hopn : e.opn = none ∨ c = .burstStart) (sa : SlaveAddr) (ra : Byte) {x : Byte}
    (hx : x = if sa = e.devAddr then e.slvAt ra else e.draws.byteValue) :
    ∃ e', e.Receives c sa ra a b e' ∧ e'.mode = .reference ∧ e'.mdr = x ∧ e'.slv = e.slv ∧
      (sa = e.devAddr → e'.wire = e.wire ++ wireReceive c sa ra x) := by
  obtain ⟨ha, hb, hbyte⟩ := Draws.countValue_of_two hc
  have hvalue : (e.drawBusyn.drawBusyn.slaveWrite sa [ra]).slaveReadValue sa = x := by
    rw [Env.slaveReadValue_slaveWrite, hx, ← hbyte]
    rfl
  cases c with
  | burstStart =>
    have hclose := Env.closeOpen_of_some (e := e.afterStart sa ra) (o := ⟨sa, [ra]⟩) rfl
    obtain ⟨e', hreceives, hm', hmdr, hslv, hwire⟩ :=
      Env.receives_of_firstCtrl (x := x) (Env.ctrl_afterStart hm sa ra) hm ha hb (by rw [hclose]; exact hvalue)
    refine ⟨e', hreceives, hm', hmdr, ?_, fun hsa => hwire.trans ?_⟩
    · rw [hslv, hclose]
      exact Env.slaveWrite_slv_single e.drawBusyn sa ra
    · simp [Env.afterStart, wireReceive, Env.ackOf, hsa]
  | burstFinish => exact absurd rfl hlegal
  | single =>
    have hnone : (e.afterSingle sa ra).opn = none := hopn.resolve_right nofun
    have hclose := Env.closeOpen_of_none hnone
    obtain ⟨e', hreceives, hm', hmdr, hslv, hwire⟩ :=
      Env.receives_of_firstCtrl (x := x) (Env.ctrl_afterSingle hm sa ra) hm ha hb (by rw [hclose]; exact hvalue)
    refine ⟨e', hreceives, hm', hmdr, ?_, fun hsa => hwire.trans ?_⟩
    · rw [hslv, hclose]
      exact Env.slaveWrite_slv_single e.drawBusyn sa ra
    · rw [hnone]
      simp [Env.afterSingle, wireReceive, Env.ackOf, hsa]

/-- Settles O60: no byte is stored, because the slave gets the register address alone; the run is that of `RECVB` in any
environment. -/
theorem recvbOnReferenceSlave : Obligations.RecvbOnReferenceSlave := by
  intro s sa ra a b counts hlegal hb hh ht hm hopn hc x
  obtain ⟨e, hreceives, hm', hmdr, hslv, hwire⟩ := Env.receives_reference hm hc hlegal hopn sa ra (x := x) rfl
  have hbyte : e.byteAnswer = x := by simp only [Env.byteAnswer, hm', hmdr]
  refine ⟨_, run_recvb hb hh ht hreceives, rfl, rfl, rfl, hbyte, by rw [hbyte], fun y => ?_, fun hsa => ?_⟩
  · rw [Env.afterGet_slv, hslv]
  · rw [Env.afterGet_wire, hwire hsa]

end Sys2Proof.Machine

/-! Proofs of the transactions family: the accept step of the two leaf commands (O11), the end of a transaction (O25),
the step that runs a micro-operation (O30), and, where the answers to come are scripted in the unconstrained environment, a
whole receive (O51), a whole send (O52) and the two leaf commands from the host's write on (O53). The runs are those of
`run_receive`, `run_send`, `run_recvb` and `run_sendb`, which hold in any environment; what is added here is that the
scripted environment answers so (`Env.receives_free`, `Env.sends_free`). -/

namespace Sys2Proof.Machine

/-- Settles O11: no check precedes the two leaf commands, so their accept step latches the word and starts the
transaction. -/
theorem transactionCommandsAccept : Obligations.TransactionCommandsAccept :=
  ⟨fun _ _ _ => rfl, fun _ _ _ _ => rfl⟩

/-! ### The end of a transaction (R139) -/

/-- The element counter of a transaction that the command has does not wrap when it is counted up. -/
theorem ec_succ_toNat {c : Config} (hw : c.wf = true) {b : Block} {i : Instr} {t : Transaction}
    (h : (transactionsOf c b i)[b.ec.toNat + 1]? = some t) : (b.ec + 1#5).toNat = b.ec.toNat + 1 := by
  have hlt := (List.getElem?_eq_some_iff.1 h).1
  have hlen := transactionsOf_length_le hw b i
  rw [BitVec.toNat_add, BitVec.toNat_ofNat]
  omega

/-- Settles O25: what the command collects leaves the registers named here, and `Block.advance` starts the transaction
after the one that has ended, or ends the command. -/
theorem transactionEnds : Obligations.TransactionEnds := by
  intro c b i hw hb hd n b'
  have hend : b' = (collect c i b).advance ((transactionsOf c b i)[n]?) := endTransaction_command hd
  obtain ⟨hrd, hcw, hbusy, hdone, herr, hec, -, htwd⟩ := collect_keeps c i b
  obtain ⟨-, hrd', -, -, -, hcw', herr', hph'⟩ := (collect c i b).advance_keeps ((transactionsOf c b i)[n]?)
  rw [← hend] at hrd' hcw' herr' hph'
  have hsucc {t : Transaction} (ht : (transactionsOf c b i)[n]? = some t) : ((collect c i b).ec + 1#5).toNat = n := by
    rw [hec, ec_succ_toNat hw ht]
  refine ⟨hcw'.trans hcw, hrd'.trans hrd, herr'.trans herr, hph',
    fun sa ra ht => ?_, fun sa ra d ht => ?_, fun ht => ?_⟩
  · rw [hend, ht]
    exact ⟨hbusy.trans hb, hdone, hsucc ht, rfl, rfl, rfl, htwd⟩
  · rw [hend, ht]
    exact ⟨hbusy.trans hb, hdone, hsucc ht, rfl, rfl, rfl, rfl⟩
  · rw [hend, ht]
    exact ⟨rfl, rfl, rfl⟩

/-! ### Whose step it is (R130, R38) -/

theorem sequencerTurn_of_currentOp {s : State} (hb : s.block.busy = true) {i : Instr}
    (hop : currentOp s.cfg s.block = some i) : sequencerTurn s = exec i s := by
  simp only [sequencerTurn, hb, if_true, sequencerStep, hop]

theorem sequencerTurn_of_idle {s : State} (hb : s.block.busy = false) : sequencerTurn s = .next s := by
  simp [sequencerTurn, hb]

/-- Unless a held write transfers, a step in which the host does not move is the turn taken. -/
theorem step_eq_takeTurn {s : State} (hh : s.held = none ∨ s.block.busy = true)
    (ht : ∀ m rest, s.turns ≠ .host m :: rest) : step s = takeTurn s := by
  cases hheld : s.held with
  | none => simp only [step, nextStep, hheld]
  | some h =>
    have hb : s.block.busy = true := hh.resolve_left (by simp [hheld])
    simp only [step, nextStep, hheld, hb, if_true]
    match hturns : s.turns with
    | [] => simp only [takeTurnHeld, takeTurn, hturns]
    | .sequencer :: rest => simp only [takeTurnHeld, takeTurn, hturns]
    | .host m :: rest => exact absurd hturns (ht m rest)

theorem step_of_noTurn {s : State} (hh : s.held = none ∨ s.block.busy = true) (ht : s.turns = []) :
    step s = sequencerTurn s := by
  rw [step_eq_takeTurn hh (by simp [ht]), takeTurn, ht]

theorem step_of_sequencer {s : State} {rest : List Turn} (hh : s.held = none ∨ s.block.busy = true)
    (ht : s.turns = .sequencer :: rest) : step s = sequencerTurn { s with turns := rest } := by
  rw [step_eq_takeTurn hh (by simp [ht]), takeTurn, ht]

/-- R39: a host that is held by its own write has no move but the reset, and its turn stays to come. -/
theorem step_of_heldHost {s : State} {m : HostMove} {rest : List Turn} (hb : s.block.busy = true) (hh : s.held ≠ none)
    (ht : s.turns = .host m :: rest) (hm : m ≠ .reset) : step s = sequencerTurn s := by
  obtain ⟨h, hheld⟩ := Option.ne_none_iff_exists'.1 hh
  cases m with
  | reset => exact absurd rfl hm
  | _ => simp only [step, nextStep, hheld, hb, if_true, takeTurnHeld, ht]

/-- Settles O30: `step_of_noTurn`, `step_of_sequencer` and `step_of_heldHost` say when it is the sequencer's turn; a wait
is a move of the host. -/
theorem stepRunsMicroOp : Obligations.StepRunsMicroOp := by
  refine ⟨fun s i hb hop => ⟨fun ht => ?_, fun rest ht => ?_, fun m rest hh ht hm => ?_⟩,
    fun s hh => ⟨fun hb ht => ?_, fun rest hb ht => ?_, fun rest ht => step_of_host hh ht⟩⟩
  · rw [step_of_noTurn (.inr hb) ht, sequencerTurn_of_currentOp hb hop]
  · rw [step_of_sequencer (.inr hb) ht]
    exact sequencerTurn_of_currentOp (s := { s with turns := rest }) hb hop
  · rw [step_of_heldHost hb hh ht hm, sequencerTurn_of_currentOp hb hop]
  · rw [step_of_noTurn (.inl hh) ht, sequencerTurn_of_idle hb]
  · rw [step_of_sequencer (.inl hh) ht]
    exact sequencerTurn_of_idle hb

/-! ### Scripted answers in the unconstrained environment (R119) -/

/-- The environment with `bits` as the busy answers still scripted. -/
def Env.withBits (e : Env) (bits : List Bool) : Env :=
  { e with draws := { e.draws with busy := bits } }

section
variable {e : Env} (hm : e.mode = .free)
include hm

theorem Env.setAddr_free (p : Byte) : e.setAddr p = e := by
  simp only [Env.setAddr, hm]

theorem Env.put_free (x : Byte) : e.put x = e := by
  simp only [Env.put, hm]

theorem Env.poll_scripted {a : Bool} {bits : List Bool} (h : e.draws.busy = a :: bits) :
    e.busyAnswer = a ∧ e.afterPoll = e.withBits bits := by
  simp [Env.busyAnswer, Env.afterPoll, hm, Draws.busyValue, Draws.afterBusy, h, Env.withBits]

theorem Env.get_scripted {x : Byte} {bytes : List Byte} (h : e.draws.byte = x :: bytes) :
    e.byteAnswer = x ∧ e.afterGet = { e with draws := { e.draws with byte := bytes } } := by
  simp [Env.byteAnswer, Env.afterGet, hm, Draws.byteValue, Draws.afterByte, h]

end

/-- R132: a scripted busy-wait is answered as it says and uses up its answers. -/
theorem Env.wait_scripted {e : Env} (hm : e.mode = .free) {n : Nat} {bits : List Bool}
    (h : e.draws.busy = waitBits n ++ bits) : e.waits n ∧ e.afterPolls (n + 1) = e.withBits bits := by
  induction n generalizing e with
  | zero => exact Env.poll_scripted hm h
  | succ n ih =>
    obtain ⟨hbusy, hpoll⟩ := Env.poll_scripted (bits := waitBits n ++ bits) hm h
    obtain ⟨hwait, hpolls⟩ := ih (e := e.withBits (waitBits n ++ bits)) hm rfl
    rw [← hpoll] at hwait hpolls
    refine ⟨⟨hbusy, hwait⟩, hpolls.trans ?_⟩
    rw [hpoll]
    rfl

section
variable {e : Env} (hm : e.mode = .free) {a b : Nat} {bits : List Bool}
  (hbits : e.draws.busy = waitBits a ++ waitBits b ++ bits)
include hm hbits

/-- Both transactions have two busy-waits, and no other micro-operation but the `GET` moves the environment. -/
theorem Env.twoWaits_scripted : e.waits a ∧ e.afterPolls (a + 1) = e.withBits (waitBits b ++ bits) ∧
    (e.withBits (waitBits b ++ bits)).waits b ∧
    (e.withBits (waitBits b ++ bits)).afterPolls (b + 1) = e.withBits bits := by
  rw [List.append_assoc] at hbits
  obtain ⟨hwait₁, hpolls₁⟩ := Env.wait_scripted hm hbits
  obtain ⟨hwait₂, hpolls₂⟩ := Env.wait_scripted (e := e.withBits (waitBits b ++ bits)) hm rfl
  exact ⟨hwait₁, hpolls₁, hwait₂, hpolls₂⟩

theorem Env.sends_free (sa : SlaveAddr) (ra d : Byte) : e.Sends sa ra d a b (e.withBits bits) := by
  obtain ⟨hwait₁, hpolls₁, hwait₂, hpolls₂⟩ := Env.twoWaits_scripted hm hbits
  refine ⟨e, _, ?_, hwait₁, ?_, hwait₂, hpolls₂.symm⟩
  · rw [Env.setAddr_free hm, Env.put_free hm, Env.ctrl_free hm]
  · have hm₁ : (e.withBits (waitBits b ++ bits)).mode = .free := hm
    rw [hpolls₁, Env.put_free hm₁, Env.ctrl_free hm₁]

theorem Env.receives_free (c : Ctrl) (sa : SlaveAddr) (ra : Byte) : e.Receives c sa ra a b (e.withBits bits) := by
  obtain ⟨hwait₁, hpolls₁, hwait₂, hpolls₂⟩ := Env.twoWaits_scripted hm hbits
  refine ⟨e, _, ?_, hwait₁, ?_, hwait₂, hpolls₂.symm⟩
  · rw [Env.setAddr_free hm, Env.put_free hm, Env.ctrl_free hm]
  · have hm₁ : (e.withBits (waitBits b ++ bits)).mode = .free := hm
    rw [hpolls₁, Env.setAddr_free hm₁, Env.ctrl_free hm₁]

end

/-- Settles O52: the run is that of a send in any environment. -/
theorem sendTransactionRuns : Obligations.SendTransactionRuns :=
  fun _ _ _ _ hb hk hp ht hm hbits => run_send ⟨hb, ht⟩ hk hp (Env.sends_free hm hbits _ _ _)

/-- Settles O51: the run is that of a receive in any environment, and the `GET` is answered the scripted byte. -/
theorem receiveTransactionRuns : Obligations.ReceiveTransactionRuns := by
  intro s a b x bits bytes hb hk hp ht hm hbits hbyte
  obtain ⟨hx, hget⟩ := Env.get_scripted (e := s.env.withBits bits) hm hbyte
  rw [run_receive ⟨hb, ht⟩ hk hp (Env.receives_free hm hbits _ _ _), hx, hget]
  rfl

/-! ### The two leaf commands -/

theorem exchangeBits_singleton (x : Exchange) : exchangeBits [x] = waitBits x.before ++ waitBits x.after := by
  simp [exchangeBits]

theorem exchangeSteps_singleton (phases : Nat) (x : Exchange) :
    exchangeSteps phases [x] = phases + x.before + x.after := by
  simp [exchangeSteps]

/-- Settles O53: the runs are those of the two commands in any environment. -/
theorem transactionCommandsRun : Obligations.TransactionCommandsRun := by
  intro s sa ra d x bits bytes hb hh hm hbits hbyte
  rw [exchangeBits_singleton] at hbits
  rw [exchangeSteps_singleton, exchangeSteps_singleton]
  refine ⟨fun ht => ?_, fun ht => run_sendb hb hh ht (Env.sends_free hm hbits sa ra d)⟩
  obtain ⟨hx, hget⟩ := Env.get_scripted (e := s.env.withBits bits) hm hbyte
  rw [run_recvb hb hh ht (Env.receives_free hm hbits _ sa ra), hx, hget]
  rfl

end Sys2Proof.Machine

/-! Proofs of the codec family: the bits of decoded fields, encoded bytes and the covered mask (O6, O7), the two round
trips (O8, O9), the order of the fields and the reserved bits (O10), and the accept step of `DEC` and `ENC` (O12, O13).
The codec is said once by bits (`fieldValue_getLsbD`, `encodeFields_getLsbD_iff`, `coveredMask_getLsbD_iff`), and the
field that covers a bit is unique (`position_eq_of_covers`); every other fact on the codec follows from these. -/

namespace Sys2Proof

/-- R152: the field's placed mask has bit `k`, by positions. -/
def Field.Covers (f : Field) (k : Nat) : Prop :=
  f.offset ≤ k ∧ k < f.offset + f.width

end Sys2Proof

namespace Sys2Proof.Machine

/-! ### The codec, bit by bit (R150 to R152) -/

theorem fieldMask_testBit (f : Field) (k : Nat) : (fieldMask f).testBit k = decide (k < f.width) := by
  rw [fieldMask, Nat.one_shiftLeft, Nat.testBit_two_pow_sub_one]

/-- R150, for any field: above bit 7 both sides are 0. -/
theorem fieldValue_getLsbD (f : Field) (b : Byte) (k : Nat) :
    (fieldValue f b).getLsbD k = (decide (k < f.width) && b.getLsbD (f.offset + k)) := by
  rw [fieldValue, BitVec.getLsbD_ofNat, Nat.testBit_and, Nat.testBit_shiftRight, fieldMask_testBit,
    BitVec.testBit_toNat]
  by_cases hk : k < 8
  · simp [hk, Bool.and_comm]
  · simp [hk, BitVec.getLsbD_of_ge b (f.offset + k) (by omega)]

theorem decodeFields_getElem? (fs : List Field) (b : Byte) (i : Nat) :
    (decodeFields fs b)[i]? = fs[i]?.map (fieldValue · b) :=
  List.getElem?_map

theorem decodeFields_length (fs : List Field) (b : Byte) : (decodeFields fs b).length = fs.length :=
  List.length_map _

/-- R152: the placed mask of a field. -/
theorem placedMask_testBit_iff (f : Field) (k : Nat) : (fieldMask f <<< f.offset).testBit k = true ↔ f.Covers k := by
  simp only [Nat.testBit_shiftLeft, fieldMask_testBit, Bool.and_eq_true, decide_eq_true_eq, Field.Covers]
  omega

/-- R151: a field contributes the bits of its value to the bits it covers. -/
theorem fieldBits_testBit_iff (f : Field) (v : Byte) (k : Nat) :
    (fieldBits f v).testBit k = true ↔ f.Covers k ∧ v.getLsbD (k - f.offset) = true := by
  rw [← placedMask_testBit_iff]
  simp only [fieldBits, Nat.testBit_shiftLeft, Nat.testBit_and, BitVec.testBit_toNat, Bool.and_eq_true]
  tauto

theorem encodeNat_testBit_iff (fs : List Field) (vs : List Byte) (k : Nat) :
    (encodeNat fs vs).testBit k = true ↔ ∃ p ∈ fs.zip vs, (fieldBits p.1 p.2).testBit k = true := by
  induction fs generalizing vs with
  | nil => simp [encodeNat]
  | cons f fs ih =>
    cases vs with
    | nil => simp [encodeNat]
    | cons v vs => simp [encodeNat, ih]

theorem coveredNat_testBit_iff (fs : List Field) (k : Nat) :
    (coveredNat fs).testBit k = true ↔ ∃ f ∈ fs, f.Covers k := by
  induction fs with
  | nil => simp [coveredNat]
  | cons f fs ih =>
    simp only [coveredNat, Nat.testBit_or, Bool.or_eq_true, placedMask_testBit_iff, ih, List.exists_mem_cons_iff]

/-! ### Well-formed field lists (R10) -/

/-- The bits that a field of a well-formed list covers are bits of the byte. -/
theorem lt_eight_of_covers {fs : List Field} (hw : fieldsWf fs = true) {f : Field} (hf : f ∈ fs) {k : Nat}
    (hk : f.Covers k) : k < 8 := by
  obtain ⟨-, -, hfields, -⟩ := fieldsWf_iff.1 hw
  obtain ⟨-, -, -, hend⟩ := hfields f hf
  exact hk.2.trans_le hend

/-- At most one position of a well-formed list has a field that covers a given bit. -/
theorem position_eq_of_covers {fs : List Field} (hw : fieldsWf fs = true) {i j : Nat} {f g : Field}
    (hi : fs[i]? = some f) (hj : fs[j]? = some g) {k : Nat} (hf : f.Covers k) (hg : g.Covers k) : i = j := by
  obtain ⟨-, -, -, hpair⟩ := fieldsWf_iff.1 hw
  obtain ⟨hi', rfl⟩ := List.getElem?_eq_some_iff.1 hi
  obtain ⟨hj', rfl⟩ := List.getElem?_eq_some_iff.1 hj
  rw [List.pairwise_iff_getElem] at hpair
  rcases lt_trichotomy i j with h | h | h
  · exact absurd ⟨hf.1, hf.2, hg⟩ (hpair i j hi' hj' h k)
  · exact h
  · exact absurd ⟨hg.1, hg.2, hf⟩ (hpair j i hj' hi' h k)

/-- R151: the truncation to 8 bits loses nothing. -/
theorem encodeFields_getLsbD_iff {fs : List Field} (hw : fieldsWf fs = true) (vs : List Byte) (k : Nat) :
    (encodeFields fs vs).getLsbD k = true ↔
      ∃ (i : Nat) (f : Field) (x : Byte), fs[i]? = some f ∧ vs[i]? = some x ∧ f.Covers k ∧
        x.getLsbD (k - f.offset) = true := by
  simp only [encodeFields, BitVec.getLsbD_ofNat, Bool.and_eq_true, decide_eq_true_eq, encodeNat_testBit_iff,
    fieldBits_testBit_iff, List.mem_iff_getElem?, List.getElem?_zip_eq_some]
  constructor
  · rintro ⟨-, ⟨f, x⟩, ⟨i, hf, hx⟩, hk, hbit⟩
    exact ⟨i, f, x, hf, hx, hk, hbit⟩
  · rintro ⟨i, f, x, hf, hx, hk, hbit⟩
    exact ⟨lt_eight_of_covers hw (List.mem_of_getElem? hf) hk, (f, x), ⟨i, hf, hx⟩, hk, hbit⟩

theorem coveredMask_getLsbD_iff {fs : List Field} (hw : fieldsWf fs = true) (k : Nat) :
    (coveredMask fs).getLsbD k = true ↔ ∃ f ∈ fs, f.Covers k := by
  rw [coveredMask, BitVec.getLsbD_ofNat, Bool.and_eq_true, decide_eq_true_eq, coveredNat_testBit_iff]
  exact and_iff_right_of_imp fun ⟨_, hf, hk⟩ => lt_eight_of_covers hw hf hk

/-- In the bits of a field the encoded byte has the field's value, since no other field covers them. -/
theorem encodeFields_getLsbD_field {fs : List Field} (hw : fieldsWf fs = true) {vs : List Byte} {i : Nat} {f : Field}
    {x : Byte} (hf : fs[i]? = some f) (hx : vs[i]? = some x) {k : Nat} (hk : k < f.width) :
    (encodeFields fs vs).getLsbD (f.offset + k) = x.getLsbD k := by
  have hcov : f.Covers (f.offset + k) := ⟨by omega, by omega⟩
  rw [Bool.eq_iff_iff, encodeFields_getLsbD_iff hw]
  constructor
  · rintro ⟨j, g, y, hg, hy, hcov', hbit⟩
    obtain rfl := position_eq_of_covers hw hf hg hcov hcov'
    cases hf.symm.trans hg
    cases hx.symm.trans hy
    rwa [Nat.add_sub_cancel_left] at hbit
  · intro hbit
    exact ⟨i, f, x, hf, hx, hcov, by rwa [Nat.add_sub_cancel_left]⟩

/-- Settles O6: the bits of `fieldValue` and of `encodeFields`. -/
theorem codecBits : Obligations.CodecBits := by
  refine ⟨fun fs b i f _ hf => ⟨fieldValue f b, ?_, fieldValue_getLsbD f b⟩, fun fs v k hw _ => ?_⟩
  · rw [decodeFields_getElem?, hf, Option.map_some]
  · simp only [encodeFields_getLsbD_iff hw, Field.Covers, and_assoc]

/-! ### The full-width field (R152) -/

theorem fieldValue_full (n : String) (b : Byte) : fieldValue ⟨n, 0, 8⟩ b = b := by
  apply BitVec.eq_of_getLsbD_eq
  intro k hk
  simp only [fieldValue_getLsbD, hk, decide_true, Bool.true_and, Nat.zero_add]

theorem encodeFields_full (n : String) (b : Byte) : encodeFields [⟨n, 0, 8⟩] [b] = b := by
  apply BitVec.eq_of_getLsbD_eq
  intro k hk
  have hbit := encodeFields_getLsbD_field (fs := [⟨n, 0, 8⟩]) (vs := [b]) (i := 0) rfl rfl rfl hk
  rwa [Nat.zero_add] at hbit

/-- Settles O7: eight masks by evaluation, the full-width field and the covered mask by bits. -/
theorem fieldMasks : Obligations.FieldMasks :=
  ⟨by decide, fun n b => ⟨congrArg (fun x => [x]) (fieldValue_full n b), encodeFields_full n b⟩,
    fun _ k hw => coveredMask_getLsbD_iff hw k⟩

/-! ### The round trips (R156, R157) -/

theorem encodeFields_decodeFields {fs : List Field} (hw : fieldsWf fs = true) (b : Byte) :
    encodeFields fs (decodeFields fs b) = b &&& coveredMask fs := by
  apply BitVec.eq_of_getLsbD_eq
  intro k _
  rw [Bool.eq_iff_iff, encodeFields_getLsbD_iff hw, BitVec.getLsbD_and, Bool.and_eq_true, coveredMask_getLsbD_iff hw]
  have hbit {f : Field} (hk : f.Covers k) : (fieldValue f b).getLsbD (k - f.offset) = b.getLsbD k := by
    obtain ⟨hlow, hhigh⟩ := hk
    rw [fieldValue_getLsbD, Nat.add_sub_cancel' hlow, decide_eq_true (by omega), Bool.true_and]
  constructor
  · rintro ⟨i, f, x, hf, hx, hk, hone⟩
    rw [decodeFields_getElem?, hf] at hx
    cases hx
    exact ⟨hbit hk ▸ hone, f, List.mem_of_getElem? hf, hk⟩
  · rintro ⟨hone, f, hf, hk⟩
    obtain ⟨i, hi⟩ := List.mem_iff_getElem?.1 hf
    exact ⟨i, f, _, hi, by rw [decodeFields_getElem?, hi, Option.map_some], hk, (hbit hk).trans hone⟩

/-- Settles O8: decoding and encoding clears the reserved bits, which a covered byte has none of and a second time finds
clear. -/
theorem byteRoundTrip : Obligations.ByteRoundTrip := by
  intro fs b hw
  refine ⟨encodeFields_decodeFields hw b, fun hcov => ?_, ?_⟩
  · rw [encodeFields_decodeFields hw, hcov]
    exact BitVec.and_allOnes
  · simp only [encodeFields_decodeFields hw, BitVec.and_assoc, BitVec.and_self]

theorem fieldValue_encodeFields {fs : List Field} (hw : fieldsWf fs = true) {vs : List Byte} {i : Nat} {f : Field}
    {x : Byte} (hf : fs[i]? = some f) (hx : vs[i]? = some x) :
    fieldValue f (encodeFields fs vs) = BitVec.ofNat 8 (x.toNat &&& fieldMask f) := by
  apply BitVec.eq_of_getLsbD_eq
  intro k hk8
  rw [fieldValue_getLsbD, BitVec.getLsbD_ofNat, Nat.testBit_and, fieldMask_testBit, BitVec.testBit_toNat]
  by_cases hk : k < f.width
  · simp [hk, hk8, encodeFields_getLsbD_field hw hf hx hk]
  · simp [hk]

/-- R152: the mask of a field keeps a value that fits its width. -/
theorem ofNat_and_fieldMask {f : Field} {x : Byte} (h : x.toNat < 2 ^ f.width) :
    BitVec.ofNat 8 (x.toNat &&& fieldMask f) = x := by
  rw [fieldMask, Nat.one_shiftLeft, Nat.and_two_pow_sub_one_of_lt_two_pow h, BitVec.ofNat_toNat, BitVec.setWidth_eq]

/-- Settles O9: each field of the encoded byte is its own value, masked. -/
theorem fieldRoundTrip : Obligations.FieldRoundTrip := by
  intro fs v i f x hw _ hf hx
  have hmasked : (decodeFields fs (encodeFields fs v))[i]? = some (BitVec.ofNat 8 (x.toNat &&& fieldMask f)) := by
    rw [decodeFields_getElem?, hf, Option.map_some, fieldValue_encodeFields hw hf hx]
  exact ⟨hmasked, fun hfits => by rw [hmasked, ofNat_and_fieldMask hfits]⟩

/-! ### Order and reserved bits (R158, R151) -/

theorem encodeNat_perm {l l' : List (Field × Byte)} (h : l.Perm l') :
    encodeNat (l.map (·.1)) (l.map (·.2)) = encodeNat (l'.map (·.1)) (l'.map (·.2)) := by
  induction h with
  | nil => rfl
  | cons p _ ih => simp only [List.map_cons, encodeNat, ih]
  | swap p q l => simp only [List.map_cons, encodeNat, Nat.or_left_comm]
  | trans _ _ ih ih' => exact ih.trans ih'

/-- A 1 of the encoded byte comes from a field that covers it. -/
theorem coveredMask_of_encodeFields {fs : List Field} (hw : fieldsWf fs = true) {vs : List Byte} {k : Nat}
    (h : (encodeFields fs vs).getLsbD k = true) : (coveredMask fs).getLsbD k = true := by
  obtain ⟨i, f, x, hf, -, hk, -⟩ := (encodeFields_getLsbD_iff hw vs k).1 h
  exact (coveredMask_getLsbD_iff hw k).2 ⟨f, List.mem_of_getElem? hf, hk⟩

/-- Settles O10: the or of the contributions is commutative, and each of them lies in the covered mask. -/
theorem encodeOrderIndependent : Obligations.EncodeOrderIndependent := by
  refine ⟨fun l l' h => congrArg (BitVec.ofNat 8) (encodeNat_perm h), fun fs v hw => ?_⟩
  apply BitVec.eq_of_getLsbD_eq
  intro k hk
  cases hone : (encodeFields fs v).getLsbD k with
  | false => simp [hone]
  | true => simp [coveredMask_of_encodeFields hw hone]

/-! ### The accept step of `DEC` and `ENC` (R153, R154) -/

theorem exec_dec_of_fields {ra : Byte} (d : Byte) {s : State} {fs : List Field} (h : fieldsOf s.cfg ra = some fs) :
    exec (.dec ra d) s =
      .next (s.withBlock ((s.block.latch (encode (.dec ra d))).setView (decodeFields fs d)).complete) := by
  simp only [exec, execDec, h]

theorem exec_enc_of_fields {ra : Byte} {s : State} {fs : List Field} (h : fieldsOf s.cfg ra = some fs) :
    exec (.enc ra) s =
      .next (s.withBlock
        { s.block.latch (encode (.enc ra)) with rd := encodeFields fs (s.block.view fs.length) }.complete) := by
  simp only [exec, execEnc, h, Block.view, Block.latch_v]

/-- Storing a decoded byte in a view puts field `i` at `i`. -/
theorem storeFrom_decodeFields {fs : List Field} {i : Nat} {f : Field} (hf : fs[i]? = some f) (hi : i < 8) (d : Byte)
    (v : Vector Byte 8) : (storeFrom 0 (decodeFields fs d) v)[i]? = some (fieldValue f d) := by
  have hlen : i < fs.length := (List.getElem?_eq_some_iff.1 hf).1
  rw [storeFrom_getElem? _ _ _ _ hi, if_pos ⟨by omega, by rw [decodeFields_length]; omega⟩, Nat.sub_zero,
    decodeFields_getElem?, hf, Option.map_some]

/-- Settles O12: the view after the step is the decoded byte stored in the view before; beyond the fields it is
unchanged by `AcceptStep.v_above`. -/
theorem decCompletes : Obligations.DecCompletes := fun _ d s _ h =>
  ⟨_, exec_dec_of_fields d h, fun _ _ hf hi => storeFrom_decodeFields hf hi d s.block.v,
    fun _ hk => (AcceptStep.decoded h).v_above h hk⟩

/-- Settles O13: `RD` is the encoding of the view; the block is otherwise that of a command carried out at once. -/
theorem encCompletes : Obligations.EncCompletes := fun _ _ _ h => exec_enc_of_fields h

end Sys2Proof.Machine

/-! Proofs of the register-access family: the value of a pair (O35), the transactions of each command (O17), the accept
step of the seven register commands (O14, O15, O16), and their runs from the host's write on (O54 to O58). On the way:
the accept step starts transaction number 0 (`State.accepted`); transaction number `k` of a running command, with what
its end makes of the block (`run_receiveElement`, `run_sendElement`), is O51 or O52 cited; and the two bank commands are
inductions over the exchanges (`run_rdbankFrom`, `run_wrbankFrom`). -/

namespace Sys2Proof.Machine

/-! ### The value of a pair (R176) -/

theorem signedReading_eq_toInt (x : Half) : signedReading x = x.toInt := by
  rw [signedReading, BitVec.toInt_eq_toNat_cond]
  split <;> split <;> omega

/-- Settles O35: the unsigned number fits 16 bits, and the signed reading is `BitVec.toInt`. -/
theorem pairSignedReading : Obligations.SignedReading := by
  intro p x
  refine ⟨fun hp => ?_, fun hp => ?_⟩
  · have hlt := x.isLt
    rw [pairReading, hp, if_neg Bool.false_ne_true]
    omega
  · rw [pairReading, hp, if_pos rfl, signedReading_eq_toInt]
    exact ⟨rfl, x.le_toInt, Int.le_sub_one_of_lt x.toInt_lt⟩

/-! ### The transactions of each command (R182) -/

theorem transactionsOf_wrreg {c : Config} {ra : Byte} {fs : List Field} (h : fieldsOf c ra = some fs) (b : Block) :
    transactionsOf c b (.wrreg ra) = [.send c.slaveAddr ra (wrregByte fs b)] := by
  simp only [transactionsOf, wrregTransactions, h]

theorem transactionsOf_rdpair {c : Config} {ra : Byte} {p : PairEntry} (h : pairOf c ra = some p) (b : Block) :
    transactionsOf c b (.rdpair ra) = [.receive c.slaveAddr p.addrH, .receive c.slaveAddr p.addrL] := by
  simp only [transactionsOf, rdpairTransactions, h, pairOf_addrH h]

theorem transactionsOf_rdbank {c : Config} {ra : Byte} {e : ArrEntry} (h : arrayOf c ra = some e) (b : Block) :
    transactionsOf c b (.rdbank ra) = (List.range e.count).map fun k => .receive c.slaveAddr (elementAddr ra k) := by
  simp only [transactionsOf, rdbankTransactions, h]

theorem transactionsOf_wrbank {c : Config} {ra : Byte} {e : ArrEntry} (h : arrayOf c ra = some e) (b : Block) :
    transactionsOf c b (.wrbank ra) =
      (List.range e.count).map fun k => .send c.slaveAddr (elementAddr ra k) (b.bufAt k) := by
  simp only [transactionsOf, wrbankTransactions, h]

/-- R25: an entry of `BUF` that exists. -/
theorem buf_getElem?_eq_bufAt (b : Block) {k : Nat} (hk : k < 24) : b.buf[k]? = some (b.bufAt k) := by
  simp [Block.bufAt, hk]

/-- Settles O17: the lists by definition, and the addresses of array elements as `elementAddr_toNat` has them. -/
theorem transactionsOfCommands : Obligations.TransactionsOfCommands := by
  intro c b sa ra idx d hw
  refine ⟨rfl, rfl, rfl, rfl, rfl, fun fs h => transactionsOf_wrreg h b, fun p h => transactionsOf_rdpair h b,
    fun e h hidx => ⟨_, elementAddr_toNat hw h hidx, rfl, rfl⟩, fun e h => ?_⟩
  rw [transactionsOf_rdbank h, transactionsOf_wrbank h]
  refine ⟨by simp, by simp, fun k hk => ⟨_, elementAddr_toNat hw h hk, by simp [hk], b.bufAt k, ?_, by simp [hk]⟩⟩
  obtain ⟨-, hcount, -⟩ := arrayOf_wf hw h
  exact buf_getElem?_eq_bufAt b (hk.trans_le hcount)

/-! ### The accept step (R81) -/

/-- The block with transaction number `k` of its command, `tr`, about to begin. -/
def Block.atElement (b : Block) (k : Nat) (tr : Transaction) : Block :=
  { b with ec := BitVec.ofNat 5 k }.start tr

/-- The state with transaction number `k` of the running command, `tr`, about to begin. -/
def State.atElement (s : State) (k : Nat) (tr : Transaction) : State :=
  s.withBlock (s.block.atElement k tr)

/-- The state in which the command word `w` runs. -/
def State.running (s : State) (w : Word) : State :=
  s.withBlock { s.block.flagsRunning with cw := w }

/-- The state after the accept step of the command word `w`, with `tr` its first transaction. -/
def State.accepted (s : State) (w : Word) (tr : Transaction) : State :=
  (s.running w).atElement 0 tr

section
variable {s : State} {ra : Byte}

theorem exec_rdreg_of_fields {fs : List Field} (h : fieldsOf s.cfg ra = some fs) :
    exec (.rdreg ra) s = .next (s.accepted (formatR 0x5 0 ra 0) (.receive s.cfg.slaveAddr ra)) := by
  simp only [exec, execRdreg, h]
  rfl

theorem exec_wrreg_of_fields {fs : List Field} (h : fieldsOf s.cfg ra = some fs) : exec (.wrreg ra) s =
    .next (s.accepted (formatR 0x6 0 ra 0) (.send s.cfg.slaveAddr ra (wrregByte fs s.block))) := by
  simp only [exec, execWrreg, h]
  rfl

theorem exec_rdpair_of_pair {p : PairEntry} (h : pairOf s.cfg ra = some p) :
    exec (.rdpair ra) s = .next (s.accepted (formatR 0x7 0 ra 0) (.receive s.cfg.slaveAddr p.addrH)) := by
  simp only [exec, execRdpair, h, pairOf_addrH h]
  rfl

variable {e : ArrEntry} (h : arrayOf s.cfg ra = some e)
include h

theorem exec_rdarr_of_index {idx : Byte} (hidx : idx.toNat < e.count) : exec (.rdarr ra idx) s =
    .next (s.accepted (formatR 0x8 idx ra 0) (.receive s.cfg.slaveAddr (elementAddr ra idx.toNat))) := by
  simp only [exec, execRdarr, h, indexLegal, hidx, decide_true, if_true]
  rfl

theorem exec_wrarr_of_index {idx : Byte} (hidx : idx.toNat < e.count) (d : Byte) : exec (.wrarr ra idx d) s =
    .next (s.accepted (formatR 0x9 idx ra d) (.send s.cfg.slaveAddr (elementAddr ra idx.toNat) d)) := by
  simp only [exec, execWrarr, h, indexLegal, hidx, decide_true, if_true]
  rfl

theorem exec_rdbank_of_array :
    exec (.rdbank ra) s = .next (s.accepted (formatR 0xA 0 ra 0) (.receive s.cfg.slaveAddr (elementAddr ra 0))) := by
  simp only [exec, execRdbank, h]
  rfl

theorem exec_wrbank_of_array : exec (.wrbank ra) s =
    .next (s.accepted (formatR 0xB 0 ra 0) (.send s.cfg.slaveAddr (elementAddr ra 0) (s.block.bufAt 0))) := by
  simp only [exec, execWrbank, h]
  rfl

end

/-- Settles O14: the table has the register, so the accept step starts the one transaction. -/
theorem registerCommandsAccept : Obligations.RegisterCommandsAccept :=
  fun _ _ _ h => ⟨exec_rdreg_of_fields h, exec_wrreg_of_fields h⟩

/-- Settles O15: the index is legal, so the accept step starts the one transaction, at an address that does not wrap. -/
theorem arrayCommandsAccept : Obligations.ArrayCommandsAccept :=
  fun _ _ d _ _ hw h hidx =>
    ⟨_, elementAddr_toNat hw h hidx, exec_rdarr_of_index h hidx, exec_wrarr_of_index h hidx d⟩

/-- Settles O16: the first transaction of a pair is at `addrH`, that of an array at element 0. -/
theorem pairAndBankCommandsAccept : Obligations.PairAndBankCommandsAccept := by
  refine ⟨fun ra s p h => exec_rdpair_of_pair h, fun ra s e h => ?_⟩
  have hread := exec_rdbank_of_array h
  have hwrite := exec_wrbank_of_array h
  rw [elementAddr_zero] at hread hwrite
  exact ⟨hread, hwrite⟩

/-! ### One exchange of a running command -/

theorem exchangeBits_cons (x : Exchange) (l : List Exchange) (bits : List Bool) :
    exchangeBits (x :: l) ++ bits = waitBits x.before ++ waitBits x.after ++ (exchangeBits l ++ bits) := by
  simp [exchangeBits]

theorem exchangeSteps_cons (phases : Nat) (x : Exchange) (l : List Exchange) :
    exchangeSteps phases (x :: l) = phases + x.before + x.after + exchangeSteps phases l := by
  simp [exchangeSteps]

/-- R27: `EC` counts up to 24 elements. -/
theorem ofNat_ec_toNat {k : Nat} (hk : k < 24) : (BitVec.ofNat 5 k).toNat = k := by
  rw [BitVec.toNat_ofNat]
  omega

/-- The block in the step that ends transaction number `k`, `tr`: a receive has put the byte `x` in `RD`. -/
def Block.ending (b : Block) (k : Nat) (tr : Transaction) (x : Byte) : Block :=
  match tr with
  | .receive _ _ => { b.atElement k tr with ph := 7, rd := x }
  | .send _ _ _ => { b.atElement k tr with ph := 6 }

/-- R139: the transactions are made of `V` and `BUF`, which are still those with which the transaction began. -/
theorem endTransaction_ending {c : Config} {b : Block} {i : Instr} {k : Nat} (hd : decodeCommand b.cw = .ok i)
    (hk : k < 24) (tr : Transaction) (x : Byte) : endTransaction c (b.ending k tr x) =
      (collect c i (b.ending k tr x)).advance ((transactionsOf c b i)[k + 1]?) := by
  have hcw : (b.ending k tr x).cw = b.cw := by cases tr <;> rfl
  have hv : (b.ending k tr x).v = b.v := by cases tr <;> rfl
  have hbuf : (b.ending k tr x).buf = b.buf := by cases tr <;> rfl
  have hec : (b.ending k tr x).ec = BitVec.ofNat 5 k := by cases tr <;> rfl
  rw [endTransaction_command (hcw ▸ hd), transactionsOf_congr c i hv hbuf, hec, ofNat_ec_toNat hk]

/-- The state after a receive of the exchange `x`, with `b` the block, and `bits` and `bytes` the answers still
scripted. -/
def State.received (s : State) (sa : SlaveAddr) (ra : Byte) (x : Exchange) (bits : List Bool) (bytes : List Byte)
    (b : Block) : State :=
  { s with
    block := b
    trace := s.trace ++ receiveTrace s.cfg.recvWriteCtrl sa ra x.before x.after x.byte
    env := { s.env with draws := { s.env.draws with busy := bits, byte := bytes } } }

/-- The state after a send of the byte `d` in the exchange `x`, with `b` the block and `bits` the busy answers still
scripted. -/
def State.sent (s : State) (sa : SlaveAddr) (ra d : Byte) (x : Exchange) (bits : List Bool) (b : Block) : State :=
  { s with
    block := b
    trace := s.trace ++ sendTrace sa ra d x.before x.after
    env := s.env.withBits bits }

/-- The command word `w` runs, the host makes no move, and the environment is the unconstrained one. -/
structure State.Runs (s : State) (w : Word) : Prop extends s.Undisturbed where
  cw : s.block.cw = w
  free : s.env.mode = .free

section
variable {s : State} {w : Word} (hs : s.Runs w) {b : Block} (hb : b.busy = true) (hcw : b.cw = w)
include hs hb hcw

theorem State.Runs.received (sa : SlaveAddr) (ra : Byte) (x : Exchange) (bits : List Bool) (bytes : List Byte) :
    (s.received sa ra x bits bytes b).Runs w :=
  ⟨⟨hb, hs.quiet⟩, hcw, hs.free⟩

theorem State.Runs.sent (sa : SlaveAddr) (ra d : Byte) (x : Exchange) (bits : List Bool) :
    (s.sent sa ra d x bits b).Runs w :=
  ⟨⟨hb, hs.quiet⟩, hcw, hs.free⟩

end

section
variable {s : State} {w : Word} (hs : s.Runs w) {i : Instr} (hd : decodeCommand w = .ok i) {k : Nat} (hk : k < 24)
  {o : Option Transaction} (ho : (transactionsOf s.cfg s.block i)[k + 1]? = o) {sa : SlaveAddr} {ra : Byte}
  {x : Exchange} {l : List Exchange} {bits : List Bool} (hbits : s.env.draws.busy = exchangeBits (x :: l) ++ bits)
include hs hd hk ho hbits

/-- A running command's receive number `k`. -/
theorem run_receiveElement {bytes : List Byte} (hbyte : s.env.draws.byte = x.byte :: bytes) :
    run (8 + x.before + x.after) (s.atElement k (.receive sa ra)) =
      .next (s.received sa ra x (exchangeBits l ++ bits) bytes
        ((collect s.cfg i (s.block.ending k (.receive sa ra) x.byte)).advance o)) := by
  rw [exchangeBits_cons] at hbits
  rw [← ho, ← endTransaction_ending (hs.cw ▸ hd) hk]
  exact receiveTransactionRuns (s.atElement k (.receive sa ra)) _ _ _ _ _ hs.busy rfl rfl hs.quiet hs.free hbits hbyte

/-- A running command's send number `k`. -/
theorem run_sendElement {d : Byte} :
    run (7 + x.before + x.after) (s.atElement k (.send sa ra d)) =
      .next (s.sent sa ra d x (exchangeBits l ++ bits)
        ((collect s.cfg i (s.block.ending k (.send sa ra d) x.byte)).advance o)) := by
  rw [exchangeBits_cons] at hbits
  rw [← ho, ← endTransaction_ending (hs.cw ▸ hd) hk]
  exact sendTransactionRuns (s.atElement k (.send sa ra d)) _ _ _ hs.busy rfl rfl hs.quiet hs.free hbits

end

/-! ### From the host's write on -/

/-- The host's one move to come is a write of the command word `w`, which transfers, and the environment is the
unconstrained one. -/
structure State.Writes (s : State) (w : Word) : Prop where
  idle : s.block.busy = false
  unheld : s.held = none
  turns : s.turns = [.host (.write 0 w)]
  free : s.env.mode = .free

/-- The state in which the command word `w`, the host's only move, runs. -/
def State.runningOnly (s : State) (w : Word) : State :=
  { s with turns := [] }.running w

section
variable {s : State} {w : Word} (hs : s.Writes w)
include hs

theorem State.Writes.runs : (s.runningOnly w).Runs w :=
  ⟨⟨rfl, rfl⟩, rfl, hs.free⟩

/-- The accept step, when it starts the transaction `tr`. -/
theorem State.Writes.run_accept {i : Instr} (hd : decodeCommand w = .ok i) {tr : Transaction}
    (haccept : exec i { s with turns := [] } = .next ({ s with turns := [] }.accepted w tr)) :
    run 1 s = .next ((s.runningOnly w).atElement 0 tr) :=
  (run_acceptStep hs.idle hs.unheld hs.turns hd).trans haccept

variable {i : Instr} (hd : decodeCommand w = .ok i) (hone : ∀ b, (transactionsOf s.cfg b i)[1]? = none)
  {sa : SlaveAddr} {ra : Byte} {x : Exchange} {bits : List Bool} (hbits : s.env.draws.busy = exchangeBits [x] ++ bits)
include hd hone hbits

/-- A command of one receive, from the host's write to the step that sets `DONE`. -/
theorem run_oneReceive {bytes : List Byte} (hbyte : s.env.draws.byte = x.byte :: bytes)
    (haccept : exec i { s with turns := [] } = .next ({ s with turns := [] }.accepted w (.receive sa ra))) :
    run (1 + exchangeSteps 8 [x]) s = .next ((s.runningOnly w).received sa ra x bits bytes
      (collect s.cfg i ((s.runningOnly w).block.ending 0 (.receive sa ra) x.byte)).finish) := by
  rw [exchangeSteps_singleton]
  exact run_trans (hs.run_accept hd haccept) (run_receiveElement hs.runs hd (by decide) (hone _) hbits hbyte)

/-- A command of one send, from the host's write to the step that sets `DONE`. -/
theorem run_oneSend {d : Byte}
    (haccept : exec i { s with turns := [] } = .next ({ s with turns := [] }.accepted w (.send sa ra d))) :
    run (1 + exchangeSteps 7 [x]) s = .next ((s.runningOnly w).sent sa ra d x bits
      (collect s.cfg i ((s.runningOnly w).block.ending 0 (.send sa ra d) x.byte)).finish) := by
  rw [exchangeSteps_singleton]
  exact run_trans (hs.run_accept hd haccept) (run_sendElement hs.runs hd (by decide) (hone _) hbits)

end

/-! ### Single registers and array elements -/

theorem storeFrom_getElem?_above {n : Nat} (l : List Byte) (f : Vector Byte n) {i k : Nat} (hk : i + l.length ≤ k) :
    (storeFrom i l f)[k]? = f[k]? := by
  by_cases hn : k < n
  · rw [storeFrom_getElem? _ _ _ _ hn, if_neg (by omega)]
  · simp [hn]

theorem collect_rdreg {c : Config} {ra : Byte} {fs : List Field} (h : fieldsOf c ra = some fs) (b : Block) :
    collect c (.rdreg ra) b = b.setView (decodeFields fs b.rd) := by
  simp only [collect, rdregCollect, h]

/-- Settles O54: one transaction; that of `RDREG` ends with the decoded byte stored in the view. -/
theorem registerCommandsRun : Obligations.RegisterCommandsRun := by
  intro s ra fs x bits bytes hf hb hh hm hbits hbyte
  have hread : decodeCommand (formatR 0x5 0 ra 0) = .ok (.rdreg ra) := decodeCommand_eq_ok_iff.2 rfl
  have hwrite : decodeCommand (formatR 0x6 0 ra 0) = .ok (.wrreg ra) := decodeCommand_eq_ok_iff.2 rfl
  refine ⟨fun ht => ⟨storeFrom 0 (decodeFields fs x.byte) s.block.v, ?_, fun i f hi h8 => ?_, fun i hi => ?_⟩,
    fun ht => ?_⟩
  · rw [run_oneReceive ⟨hb, hh, ht, hm⟩ hread (fun _ => rfl) hbits hbyte
      (exec_rdreg_of_fields (s := { s with turns := [] }) hf), collect_rdreg hf]
    rfl
  · exact storeFrom_decodeFields hi h8 x.byte s.block.v
  · exact storeFrom_getElem?_above _ _ (by rwa [decodeFields_length, Nat.zero_add])
  · rw [run_oneSend ⟨hb, hh, ht, hm⟩ hwrite (fun b => by rw [transactionsOf_wrreg hf]; rfl) hbits
      (exec_wrreg_of_fields (s := { s with turns := [] }) hf)]
    rfl

/-- Settles O56: one transaction, at the element's address. -/
theorem arrayElementRuns : Obligations.ArrayElementRuns := by
  intro s ra idx d a e x bits bytes hw he hidx ha hb hh hm hbits hbyte
  obtain rfl : a = elementAddr ra idx.toNat := BitVec.eq_of_toNat_eq (ha.trans (elementAddr_toNat hw he hidx).symm)
  have hread : decodeCommand (formatR 0x8 idx ra 0) = .ok (.rdarr ra idx) := decodeCommand_eq_ok_iff.2 rfl
  have hwrite : decodeCommand (formatR 0x9 idx ra d) = .ok (.wrarr ra idx d) := decodeCommand_eq_ok_iff.2 rfl
  refine ⟨fun ht => ?_, fun ht => ?_⟩
  · rw [run_oneReceive ⟨hb, hh, ht, hm⟩ hread (fun _ => rfl) hbits hbyte
      (exec_rdarr_of_index (s := { s with turns := [] }) he hidx)]
    rfl
  · rw [run_oneSend ⟨hb, hh, ht, hm⟩ hwrite (fun _ => rfl) hbits
      (exec_wrarr_of_index (s := { s with turns := [] }) he hidx d)]
    rfl

/-! ### Pairs -/

/-- R175: the high-order byte stands in bits [15:8]. -/
theorem combine_eq_append (h l : Byte) : combine h l = h ++ l := by
  apply BitVec.eq_of_getLsbD_eq
  intro k hk
  simp only [combine, BitVec.getLsbD_or, BitVec.getLsbD_shiftLeft, BitVec.getLsbD_append, BitVec.getLsbD_setWidth]
  by_cases h8 : k < 8
  · simp [h8, hk]
  · have h16 : k - 8 < 16 := by omega
    simp [h8, hk, h16, BitVec.getLsbD_of_ge l k (by omega)]

/-- R175, end 0: the high-order byte goes into `HI`. -/
theorem collect_rdpair_first (c : Config) (b : Block) (ra a a' x : Byte) (sa sa' : SlaveAddr) :
    (collect c (.rdpair ra) (b.ending 0 (.receive sa a) x)).advance (some (.receive sa' a')) =
      { b with rd := x, hi := x }.atElement 1 (.receive sa' a') :=
  rfl

/-- R175, end 1: the low-order byte joins it in `RW`. -/
theorem collect_rdpair_last (c : Config) (b : Block) (ra a x : Byte) (sa : SlaveAddr) :
    (collect c (.rdpair ra) (b.ending 1 (.receive sa a) x)).advance none =
      ({ b with rd := x, rw := b.hi ++ x }.start (.receive sa a)).finish := by
  rw [← combine_eq_append]
  rfl

/-- Settles O55: the first receive ends with its byte in `HI` and starts the second, which combines the two bytes. -/
theorem rdpairRuns : Obligations.RdpairRuns := by
  intro s ra p x y bits bytes hp hb hh ht hm hbits hbyte
  have hd : decodeCommand (formatR 0x7 0 ra 0) = .ok (.rdpair ra) := decodeCommand_eq_ok_iff.2 rfl
  have hsecond (b : Block) : (transactionsOf s.cfg b (.rdpair ra))[1]? = some (.receive s.cfg.slaveAddr p.addrL) := by
    rw [transactionsOf_rdpair hp]
    rfl
  have hthird (b : Block) : (transactionsOf s.cfg b (.rdpair ra))[2]? = none := by
    rw [transactionsOf_rdpair hp]
    rfl
  have hs : s.Writes (formatR 0x7 0 ra 0) := ⟨hb, hh, ht, hm⟩
  have haccept := hs.run_accept hd (exec_rdpair_of_pair (s := { s with turns := [] }) hp)
  have hhigh := run_receiveElement hs.runs hd (by decide) (hsecond _) (sa := s.cfg.slaveAddr) (ra := p.addrH) hbits
    hbyte
  rw [collect_rdpair_first] at hhigh
  have hruns := hs.runs.received (b := { (s.runningOnly (formatR 0x7 0 ra 0)).block with rd := x.byte, hi := x.byte })
    rfl rfl s.cfg.slaveAddr p.addrH x (exchangeBits [y] ++ bits) (y.byte :: bytes)
  have hlow := run_receiveElement hruns hd (by decide) (hthird _) (sa := s.cfg.slaveAddr) (ra := p.addrL) rfl rfl
  rw [collect_rdpair_last] at hlow
  rw [exchangeSteps_cons, exchangeSteps_singleton, run_trans haccept (run_trans hhigh hlow)]
  rfl

/-! ### Banks, one element after another -/

/-- R179: element `k` goes into `BUF[k]`. -/
theorem collect_rdbank_next (c : Config) (b : Block) {k : Nat} (hk : k < 24) (ra a a' x : Byte) (sa sa' : SlaveAddr) :
    (collect c (.rdbank ra) (b.ending k (.receive sa a) x)).advance (some (.receive sa' a')) =
      ({ b with rd := x }.setBuf k x).atElement (k + 1) (.receive sa' a') := by
  simp only [collect, rdbankCollect, Block.ending, Block.atElement, Block.start, Block.advance, ofNat_ec_toNat hk,
    BitVec.ofNat_add, Block.setBuf]

theorem collect_rdbank_last (c : Config) (b : Block) {k : Nat} (hk : k < 24) (ra a x : Byte) (sa : SlaveAddr) :
    (collect c (.rdbank ra) (b.ending k (.receive sa a) x)).advance none =
      (({ b with rd := x }.setBuf k x).start (.receive sa a)).finish := by
  simp only [collect, rdbankCollect, Block.ending, Block.atElement, Block.start, Block.advance, ofNat_ec_toNat hk,
    Block.setBuf, Block.finish, Block.flagsEnded]

theorem collect_wrbank_next (c : Config) (b : Block) (k : Nat) (ra a a' d d' x : Byte) (sa sa' : SlaveAddr) :
    (collect c (.wrbank ra) (b.ending k (.send sa a d) x)).advance (some (.send sa' a' d')) =
      b.atElement (k + 1) (.send sa' a' d') := by
  simp only [collect, Block.ending, Block.atElement, Block.start, Block.advance, BitVec.ofNat_add]

theorem collect_wrbank_last (c : Config) (b : Block) (k : Nat) (ra a d x : Byte) (sa : SlaveAddr) :
    (collect c (.wrbank ra) (b.ending k (.send sa a d) x)).advance none = (b.start (.send sa a d)).finish := by
  simp only [collect, Block.ending, Block.atElement, Block.start, Block.advance, Block.finish, Block.flagsEnded]

section
variable {s : State} {ra : Byte} {e : ArrEntry} {x : Exchange} {xs : List Exchange} {k : Nat} {bits : List Bool}
  (he : arrayOf s.cfg ra = some e) (hcount : e.count ≤ 24) (hlen : k + 1 + xs.length = e.count)
  (hbits : s.env.draws.busy = exchangeBits (x :: xs) ++ bits)
include he hcount hlen hbits

/-- R179: the receives from element `k` on. -/
theorem run_rdbankFrom {bytes : List Byte} (hs : s.Runs (formatR 0xA 0 ra 0))
    (hbyte : s.env.draws.byte = (x :: xs).map (·.byte) ++ bytes) :
    run (exchangeSteps 8 (x :: xs)) (s.atElement k (.receive s.cfg.slaveAddr (elementAddr ra k))) = .next { s with
      block := ({ s.block with
        rd := (xs.map Exchange.byte).getLastD x.byte,
        buf := storeFrom k ((x :: xs).map Exchange.byte) s.block.buf }.start
          (.receive s.cfg.slaveAddr (elementAddr ra (k + xs.length)))).finish
      trace := s.trace ++ bankReadTrace s.cfg.recvWriteCtrl s.cfg.slaveAddr ra k (x :: xs)
      env := { s.env with draws := { s.env.draws with busy := bits, byte := bytes } } } := by
  have hd : decodeCommand (formatR 0xA 0 ra 0) = .ok (.rdbank ra) := decodeCommand_eq_ok_iff.2 rfl
  have hk : k < 24 := by omega
  induction xs generalizing s x k with
  | nil =>
    have hlast : (transactionsOf s.cfg s.block (.rdbank ra))[k + 1]? = none := by
      simp [transactionsOf_rdbank he, ← hlen]
    have hrun := run_receiveElement hs hd hk hlast (sa := s.cfg.slaveAddr) (ra := elementAddr ra k) hbits hbyte
    rw [collect_rdbank_last _ _ hk] at hrun
    rw [exchangeSteps_singleton, hrun, bankReadTrace, bankReadTrace, List.append_nil]
    rfl
  | cons y ys ih =>
    rw [List.length_cons] at hlen
    have hnext : (transactionsOf s.cfg s.block (.rdbank ra))[k + 1]? =
        some (.receive s.cfg.slaveAddr (elementAddr ra (k + 1))) := by
      simp [transactionsOf_rdbank he, ← hlen]
    have hrun := run_receiveElement hs hd hk hnext (sa := s.cfg.slaveAddr) (ra := elementAddr ra k) hbits hbyte
    rw [collect_rdbank_next _ _ hk] at hrun
    have hruns := hs.received (b := { s.block with rd := x.byte }.setBuf k x.byte) hs.busy hs.cw s.cfg.slaveAddr
      (elementAddr ra k) x (exchangeBits (y :: ys) ++ bits) ((y :: ys).map (·.byte) ++ bytes)
    have hrest := ih (s := s.received _ _ _ _ _ _) (k := k + 1) he (by omega) rfl hruns rfl (by omega)
    rw [exchangeSteps_cons, run_trans hrun hrest, List.length_cons, List.map_cons, List.getLastD_cons, bankReadTrace,
      Nat.add_right_comm]
    simp only [State.received, List.append_assoc]
    rfl

/-- R180: the sends from element `k` on. -/
theorem run_wrbankFrom (hs : s.Runs (formatR 0xB 0 ra 0)) : run (exchangeSteps 7 (x :: xs))
      (s.atElement k (.send s.cfg.slaveAddr (elementAddr ra k) (s.block.bufAt k))) = .next { s with
    block := (s.block.start (.send s.cfg.slaveAddr (elementAddr ra (k + xs.length))
      (s.block.bufAt (k + xs.length)))).finish
    trace := s.trace ++ bankWriteTrace s.cfg.slaveAddr ra s.block k (x :: xs)
    env := s.env.withBits bits } := by
  have hd : decodeCommand (formatR 0xB 0 ra 0) = .ok (.wrbank ra) := decodeCommand_eq_ok_iff.2 rfl
  have hk : k < 24 := by omega
  induction xs generalizing s x k with
  | nil =>
    have hlast : (transactionsOf s.cfg s.block (.wrbank ra))[k + 1]? = none := by
      simp [transactionsOf_wrbank he, ← hlen]
    have hrun := run_sendElement hs hd hk hlast (sa := s.cfg.slaveAddr) (ra := elementAddr ra k)
      (d := s.block.bufAt k) hbits
    rw [collect_wrbank_last] at hrun
    rw [exchangeSteps_singleton, hrun, bankWriteTrace, bankWriteTrace, List.append_nil]
    rfl
  | cons y ys ih =>
    rw [List.length_cons] at hlen
    have hnext : (transactionsOf s.cfg s.block (.wrbank ra))[k + 1]? =
        some (.send s.cfg.slaveAddr (elementAddr ra (k + 1)) (s.block.bufAt (k + 1))) := by
      simp [transactionsOf_wrbank he, ← hlen]
    have hrun := run_sendElement hs hd hk hnext (sa := s.cfg.slaveAddr) (ra := elementAddr ra k)
      (d := s.block.bufAt k) hbits
    rw [collect_wrbank_next] at hrun
    have hruns := hs.sent (b := s.block) hs.busy hs.cw s.cfg.slaveAddr (elementAddr ra k) (s.block.bufAt k) x
      (exchangeBits (y :: ys) ++ bits)
    have hrest := ih (s := s.sent _ _ _ _ _ _) (k := k + 1) he (by omega) rfl hruns (by omega)
    rw [exchangeSteps_cons, run_trans hrun hrest, List.length_cons, bankWriteTrace, Nat.add_right_comm]
    simp only [State.sent, List.append_assoc]
    rfl

end

theorem storeFrom_getElem?_within {n : Nat} {l : List Byte} {k : Nat} {x : Byte} (hx : l[k]? = some x) (hk : k < n)
    (f : Vector Byte n) : (storeFrom 0 l f)[k]? = some x := by
  have hlen := (List.getElem?_eq_some_iff.1 hx).1
  rw [storeFrom_getElem? _ _ _ _ hk, if_pos ⟨k.zero_le, by rwa [Nat.zero_add]⟩, Nat.sub_zero, hx]

/-- Settles O57: `run_rdbankFrom` from element 0 on; the bytes are then stored in `BUF` from entry 0 on. -/
theorem rdbankRuns : Obligations.RdbankRuns := by
  intro s ra e l bits bytes hw he hlen hb hh ht hm hbits hbyte
  obtain ⟨hpos, hcount, -⟩ := arrayOf_wf hw he
  obtain ⟨x, xs, rfl⟩ := List.exists_cons_of_length_pos (hlen ▸ hpos)
  have hs : s.Writes (formatR 0xA 0 ra 0) := ⟨hb, hh, ht, hm⟩
  have hd : decodeCommand (formatR 0xA 0 ra 0) = .ok (.rdbank ra) := decodeCommand_eq_ok_iff.2 rfl
  have haccept := hs.run_accept hd (exec_rdbank_of_array (s := { s with turns := [] }) he)
  have hlen₀ : 0 + 1 + xs.length = e.count := by rw [← hlen, List.length_cons, Nat.zero_add, Nat.add_comm]
  have hbank := run_rdbankFrom (s := s.runningOnly _) he hcount hlen₀ hbits hs.runs hbyte
  refine ⟨_, run_trans haccept hbank, rfl, fun k y hy => ?_, fun k hk => ?_, fun y hy => ?_,
    ⟨rfl, rfl, rfl, rfl, rfl, rfl⟩, ⟨rfl, rfl, rfl, rfl⟩, rfl, rfl, rfl, hh, rfl⟩
  · have hlt := (List.getElem?_eq_some_iff.1 hy).1
    exact storeFrom_getElem?_within (by rw [List.getElem?_map, hy]; rfl) (by omega) _
  · exact storeFrom_getElem?_above _ _ (by rwa [List.length_map, hlen, Nat.zero_add])
  · rw [List.getLast?_cons, Option.some.injEq] at hy
    rw [← hy, Block.finish_rd, Block.start_rd, List.getLastD_eq_getLast?, List.getLast?_map, Option.getD_map]

/-- A bank write reads nothing of the block but `BUF`. -/
theorem bankWriteTrace_congr {b b' : Block} (h : b.buf = b'.buf) (sa : SlaveAddr) (base : Byte) (k : Nat)
    (l : List Exchange) : bankWriteTrace sa base b k l = bankWriteTrace sa base b' k l := by
  induction l generalizing k with
  | nil => rfl
  | cons x xs ih => rw [bankWriteTrace, bankWriteTrace, ih, Block.bufAt, Block.bufAt, h]

/-- Settles O58: `run_wrbankFrom` from element 0 on. -/
theorem wrbankRuns : Obligations.WrbankRuns := by
  intro s ra e l bits hw he hlen hb hh ht hm hbits
  obtain ⟨hpos, hcount, -⟩ := arrayOf_wf hw he
  obtain ⟨x, xs, rfl⟩ := List.exists_cons_of_length_pos (hlen ▸ hpos)
  have hs : s.Writes (formatR 0xB 0 ra 0) := ⟨hb, hh, ht, hm⟩
  have hd : decodeCommand (formatR 0xB 0 ra 0) = .ok (.wrbank ra) := decodeCommand_eq_ok_iff.2 rfl
  have haccept := hs.run_accept hd (exec_wrbank_of_array (s := { s with turns := [] }) he)
  have hlen₀ : 0 + 1 + xs.length = e.count := by rw [← hlen, List.length_cons, Nat.zero_add, Nat.add_comm]
  have hbank := run_wrbankFrom (s := s.runningOnly _) he hcount hlen₀ hbits hs.runs
  have htrace := bankWriteTrace_congr (b := (s.runningOnly (formatR 0xB 0 ra 0)).block) (b' := s.block) rfl
    s.cfg.slaveAddr ra 0 (x :: xs)
  exact ⟨_, run_trans haccept hbank, congrArg (s.trace ++ ·) htrace,
    ⟨rfl, rfl, rfl, rfl, rfl, rfl⟩, ⟨rfl, rfl, rfl, rfl, rfl⟩, rfl, rfl, rfl, hh, rfl⟩

end Sys2Proof.Machine

/-! Proofs of the exceptions family: what a refused and an accepted command make of the block (O18, O19), the
independence of a refusal from the state (O20), and the busy-wait without a bound (O50). On the way: the accept step is
`AcceptStep` taken apart by `refusalOf` and `carriedOutAtOnce`; `ERR` after a write to `CMD` is a function of the word
and the parameters (`commandErr`). -/

namespace Sys2Proof.Machine

/-! ### The accept step, refused or not (R81, R206, R207) -/

theorem isCommand_of_encode {i : Instr} {w : Word} (h : encode i = .command w) : i.isCommand = true :=
  decodeCommand_isCommand (decodeCommand_eq_ok_iff.2 h)

/-- A command always answers, and its accept step is one of those of `AcceptStep`. -/
theorem exec_command_eq {i : Instr} (hi : i.isCommand = true) (s : State) :
    ∃ b, AcceptStep s i b ∧ exec i s = .next (s.withBlock b) := by
  obtain ⟨b, h⟩ := exec_command hi s
  obtain ⟨b', hacc, ht⟩ := exec_command_acceptStep hi h
  exact ⟨b', hacc, ht ▸ h⟩

section
variable {s : State} {i : Instr} {b : Block} (h : AcceptStep s i b)
include h

/-- R207: a command that a check refuses does nothing but `raise`. -/
theorem AcceptStep.eq_raise {e : ErrCode} (hr : refusalOf s.cfg i = some e) :
    b = (s.block.latch (encode i)).raise e := by
  cases h with
  | refused hr' => cases hr.symm.trans hr'; rfl
  | decoded hf | encoded hf => simp [refusalOf, hf] at hr
  | started _ hok => cases hr.symm.trans hok

/-- R81 (1): the word is latched before anything is checked. -/
theorem AcceptStep.cw_eq {w : Word} (henc : encode i = .command w) : b.cw = w := by
  have hlatch : (s.block.latch (encode i)).cw = w := by rw [henc]; rfl
  cases h <;> simpa using hlatch

/-- R207, R206: `ERR` is why the command is refused, and 0 if it is not. -/
theorem AcceptStep.err_eq : b.err = (refusalOf s.cfg i).getD .none := by
  cases h with
  | refused hr => rw [hr]; rfl
  | decoded hf | encoded hf => simp [refusalOf, hf]
  | started _ hok => rw [hok]; simp

/-- R153, R154: a `DEC` or `ENC` is over with its accept step. -/
theorem AcceptStep.done_of_atOnce (hi : carriedOutAtOnce i = true) : b.done = true := by
  cases h with
  | started hbus => cases hi.symm.trans hbus
  | _ => rfl

/-- R81 (4): an accepted command that needs the bus stands at the first phase of its first transaction. -/
theorem AcceptStep.starts (hr : refusalOf s.cfg i = none) (hi : carriedOutAtOnce i = false) :
    b.busy = true ∧ b.done = false ∧ b.ec = 0#5 ∧ b.ph = 0#3 := by
  cases h with
  | refused hr' => cases hr.symm.trans hr'
  | decoded | encoded => cases hi
  | started => simp

end

/-- Settles O18: `AcceptStep.eq_raise` for a command; a word that is no command is refused by `hostWrite` itself. -/
theorem refusalEffect : Obligations.RefusalEffect := by
  refine ⟨fun i w e s henc hr => ?_, fun w x s hd => ?_⟩
  · obtain ⟨b, hacc, hexec⟩ := exec_command_eq (isCommand_of_encode henc) s
    rw [hexec, hacc.eq_raise hr, henc]
    rfl
  · rw [hostWrite, if_pos rfl, hd]
    rfl

/-- Settles O19: with no refusal, the accept step carries the command out or starts it. -/
theorem acceptEffect : Obligations.AcceptEffect := by
  intro i w s henc hr
  obtain ⟨b, hacc, hexec⟩ := exec_command_eq (isCommand_of_encode henc) s
  have herr : b.err = .none := by rw [hacc.err_eq, hr]; rfl
  exact ⟨_, hexec, hacc.cw_eq henc, herr, rfl, rfl,
    fun hi => ⟨hacc.done_of_atOnce hi, (hacc.sequencer_eq (.inl hi)).1⟩, hacc.starts hr⟩

/-! ### What a refusal depends on (R203) -/

/-- `ERR` after a write of the word to `CMD` transfers. -/
def commandErr (c : Config) (w : Word) : ErrCode :=
  match decodeCommand w with
  | .error _ => .illegalCommand
  | .ok i => (refusalOf c i).getD .none

theorem hostWrite_command_err (w : Word) (s : State) :
    ∃ t, hostWrite 0 w s = .next t ∧ t.block.err = commandErr s.cfg w := by
  unfold commandErr
  cases hd : decodeCommand w with
  | error x => exact ⟨_, refusalEffect.2 w x s hd, rfl⟩
  | ok i =>
    obtain ⟨b, hacc, hexec⟩ := exec_command_eq (decodeCommand_isCommand hd) s
    exact ⟨_, (hostWrite_command hd s).trans hexec, hacc.err_eq⟩

/-- R208: the checks of a command that decodes are those of the tables. -/
theorem refusalOf_ne_illegalCommand (c : Config) (i : Instr) : refusalOf c i ≠ some .illegalCommand := by
  cases i with
  | rdarr ra idx | wrarr ra idx _ =>
    cases h : arrayOf c ra <;> simp [refusalOf, h]
  | _ => simp [refusalOf]

/-- R202: `ILLEGAL_COMMAND` is raised for the words that do not decode, and for no others. -/
theorem commandErr_eq_illegalCommand_iff {c : Config} {w : Word} :
    commandErr c w = .illegalCommand ↔ ∃ x, decodeCommand w = .error x := by
  unfold commandErr
  cases decodeCommand w with
  | error x => simp
  | ok i => simp [Option.getD_eq_iff, refusalOf_ne_illegalCommand]

/-- R208: a check looks into the three tables only. -/
theorem refusalOf_congr {c c' : Config} (hreg : c.regtab = c'.regtab) (hpair : c.pairtab = c'.pairtab)
    (harr : c.arrtab = c'.arrtab) (i : Instr) : refusalOf c i = refusalOf c' i := by
  unfold refusalOf fieldsOf pairOf arrayOf
  rw [hreg, hpair, harr]

/-- Settles O20: `ERR` is `commandErr` of the word and the parameters. -/
theorem refusalIndependentOfState : Obligations.RefusalIndependentOfState := by
  intro w s s'
  obtain ⟨t, ht, herr⟩ := hostWrite_command_err w s
  obtain ⟨t', ht', herr'⟩ := hostWrite_command_err w s'
  refine ⟨t, t', ht, ht', ?_, fun hreg hpair harr => ?_⟩
  · rw [herr, herr', commandErr_eq_illegalCommand_iff, commandErr_eq_illegalCommand_iff]
  · rw [herr, herr']
    simp only [commandErr, refusalOf_congr hreg hpair harr]

/-! ### A busy-wait (R132, R210) -/

/-- R133, R136: the busy-waits of both phase tables. -/
theorem currentOp_of_busyWait (c : Config) {b : Block} (hp : b.ph = 3#3 ∨ b.ph = 6#3) : currentOp c b = some .poll := by
  unfold currentOp receiveOp sendOp
  rcases hp with hp | hp <;> rw [hp] <;> cases b.tk <;> rfl

/-- R132: a `POLL` answered busy leaves the block where it is, in any environment. -/
theorem step_of_pollsBusy {s : State} (hb : s.block.busy = true) (hq : s.turns = []) (hp : s.pollsBusy = true) :
    step s = .next (s.onPort 0x300#11 (.busy true) s.block s.env.afterPoll) := by
  obtain ⟨hph, hbusy⟩ := pollsBusy_iff.1 hp
  rw [step_of_quiet hb hq, sequencerStep, currentOp_of_busyWait s.cfg hph]
  simp only [exec_poll, hbusy, Block.afterPoll_true]

/-- R119, R132: in the unconstrained environment such a `POLL` uses up the scripted answer 1. -/
theorem step_of_scriptedBusy {s : State} (hb : s.block.busy = true) (hp : s.block.ph = 3#3 ∨ s.block.ph = 6#3)
    (hq : s.turns = []) (hm : s.env.mode = .free) {bits : List Bool} (hbits : s.env.draws.busy = true :: bits) :
    step s = .next (s.onPort 0x300#11 (.busy true) s.block (s.env.withBits bits)) := by
  obtain ⟨hbusy, hpoll⟩ := Env.poll_scripted hm hbits
  rw [step_of_pollsBusy hb hq (pollsBusy_iff.2 ⟨hp, hbusy⟩), hpoll]

/-- Settles O50, by induction on the number of busy answers, each of which takes one step. -/
theorem hangsWhileBusy : Obligations.HangsWhileBusy := by
  intro n s rest hb hp hq hm hbits
  induction n generalizing s with
  | zero =>
    obtain rfl : s.env.draws.busy = rest := hbits
    rw [run, List.replicate_zero, List.append_nil]
  | succ n ih =>
    have hstep := step_of_scriptedBusy hb hp hq hm (bits := List.replicate n true ++ rest) hbits
    have hrest := ih (s.onPort 0x300#11 (.busy true) s.block (s.env.withBits (List.replicate n true ++ rest)))
      hb hp hq hm rfl
    rw [run_succ_of_step hstep, hrest, List.replicate_succ]
    simp only [State.onPort, Env.withBits, List.append_assoc, List.singleton_append]

end Sys2Proof.Machine

/-! The proof of O36, the reset input: `step_of_reset` says when the reset is the next step. -/

namespace Sys2Proof.Machine

/-- R230: the reset input has its turn when no write is held, and also while a command runs. A held write with `BUSY` 0
would transfer first (R39, `step_of_held`). -/
theorem step_of_reset {s : State} {rest : List Turn} (hh : s.held = none ∨ s.block.busy = true)
    (ht : s.turns = .host .reset :: rest) : step s = .next { s with turns := rest }.resetInput := by
  cases hheld : s.held with
  | none => exact step_of_host hheld ht
  | some w =>
    have hb : s.block.busy = true := hh.resolve_left (by simp [hheld])
    simp only [step, nextStep, hheld, hb, if_true, takeTurnHeld, ht, hostMove]

/-- Settles O36. Where the held write transfers, it touches the block only (`hostWrite_withBlock`): afterwards no write is
held and the reset is still the next turn. -/
theorem resetInput : Obligations.ResetInput := by
  refine fun s rest ht => ⟨fun hh => step_of_reset hh ht, fun h hh hb => ?_⟩
  obtain ⟨b, htransfer⟩ := hostWrite_withBlock h.num h.word { s with held := none }
  have hreset := step_of_reset (s := State.withBlock { s with held := none } b) (.inl rfl) ht
  exact ⟨_, htransfer, (step_of_held hb hh).trans htransfer, hreset⟩

end Sys2Proof.Machine
